-- ==== Sys2Proof/Word.lean ====
section
/-!
DEFINITION. The word types of the station and the fixed-size bank of like records.
-/
namespace Sys2Proof

/-- One byte of a frame payload or of the configuration image (R131, R182). -/
abbrev Byte := BitVec 8

/-- A value of the 32-bit tick count (R1). -/
abbrev Tick := BitVec 32

/-- Coil outputs C0–C15 (1.5.4). -/
abbrev Out := Fin 16

/-- Switch inputs S0–S23 (1.5.4). -/
abbrev Sw := Fin 24

/-- Lamp outputs L0–L15 (1.5.4). -/
abbrev Lamp := Fin 16

/-- Flipper records 0–3 (1.5.4). -/
abbrev Flip := Fin 4

/-- `n` like records, numbered from 0. -/
structure Bank (α : Type) (n : Nat) where
  items : List α
  len : items.length = n
  deriving DecidableEq, Repr

namespace Bank

variable {α β : Type} {n : Nat}

/-- The record of number `i`. -/
def get (b : Bank α n) (i : Fin n) : α :=
  b.items[i.val]'(by rw [b.len]; exact i.isLt)

/-- The bank with record `i` replaced. -/
def set (b : Bank α n) (i : Fin n) (x : α) : Bank α n :=
  ⟨b.items.set i.val x, by rw [List.length_set, b.len]⟩

/-- `n` copies of one record. -/
def fill (n : Nat) (x : α) : Bank α n :=
  ⟨List.replicate n x, List.length_replicate⟩

/-- The bank whose record `i` is `f i`. -/
def ofFn (f : Fin n → β) : Bank β n :=
  ⟨(List.finRange n).map f, by rw [List.length_map, List.length_finRange]⟩

/-- Every record changed by `f`, which is given its number. -/
def mapIdx (b : Bank α n) (f : Fin n → α → β) : Bank β n :=
  ofFn fun i => f i (b.get i)

end Bank

/-- The first number of a bank of `n` that satisfies `p`. -/
def firstFin (n : Nat) (p : Fin n → Bool) : Option (Fin n) :=
  (List.finRange n).find? p

end Sys2Proof
end

