-- ==== Sys2Proof/Syntax.lean ====
section
/-!
DEFINITION. The commands of the station: one constructor for each row of spec/opcode_table.json.
-/
namespace Sys2Proof

/-- A frame heard to completion: what the row of its kind does not already say (Table 8-1). -/
structure Heard where
  prio : BitVec 3
  source : BitVec 6
  payload : List Byte
  deriving DecidableEq, Repr

/-- The five kinds of error of R141. -/
inductive ErrKind where
  | bit | stuff | check | form | ack
  deriving DecidableEq, Repr

/-- The steps of the station, by the rows of spec/opcode_table.json. Each docstring names the rule
of its row. -/
inductive Instr where
  /-- POWER_ON_RESET (R177): the level of the reset line (high?) and the straps. -/
  | powerOnReset (lineHigh : Bool) (straps : BitVec 6)
  /-- RESET_LINE_ASSERT (R28). -/
  | resetLineAssert
  /-- RESET_LINE_RELEASE (R177): the straps as read at the release. -/
  | resetLineRelease (straps : BitVec 6)
  /-- IMAGE_CHECK (R178): the bytes of the serial memory, from address 0. -/
  | imageCheck (image : List Byte)
  /-- JOINING_END (R179). -/
  | joiningEnd
  /-- UNCONFIGURED_STATUS (R180). -/
  | unconfiguredStatus
  /-- FIRE (R6): the command frame. -/
  | fire (f : Heard)
  /-- HOLD (R7): the command frame. -/
  | hold (f : Heard)
  /-- RELEASE (R18): the command frame. -/
  | release (f : Heard)
  /-- TRAIN (R89): the command frame. -/
  | train (f : Heard)
  /-- TRAIN_STOP (R97): the command frame. -/
  | trainStop (f : Heard)
  /-- LAMP (R115): the command frame. -/
  | lamp (f : Heard)
  /-- CLEAR (R24): the command frame. -/
  | clear (f : Heard)
  /-- QUERY (R181): the command frame. -/
  | query (f : Heard)
  /-- GUARD_PASSED (R11): the output whose entry's age passed the skip guard. -/
  | guardPassed (n : Out)
  /-- WAIT_LIMIT_EXPIRY (R14): the output whose entry reached its wait limit. -/
  | waitLimitExpiry (n : Out)
  /-- FRAME_OFFER (R150). -/
  | frameOffer
  /-- ARBITRATION_LOST (R133). -/
  | arbitrationLost
  /-- OWN_FRAME_COMPLETE (R151). -/
  | ownFrameComplete
  /-- TRANSMIT_ERROR (R152), taken when the error settles: its kind and the tick it was found at. -/
  | transmitError (kind : ErrKind) (found : Tick)
  /-- RECEIVE_ERROR (R143), taken when the error settles: its kind. -/
  | receiveError (kind : ErrKind)
  /-- RECOVERY_COMPLETE (R159). -/
  | recoveryComplete
  /-- STOP_PATTERN (R145). -/
  | stopPattern
  /-- STOP_PATTERN_END (R144). -/
  | stopPatternEnd
  /-- CLAIM_HEARD (R59). -/
  | claimHeard (f : Heard)
  /-- STANDING_HEARD (R66). -/
  | standingHeard (f : Heard)
  /-- HEARD_FRAME (R50): a frame of a kind with no row of its own, and that kind. -/
  | heardFrame (kind : BitVec 5) (f : Heard)
  /-- BEAT_RECEIVED (R127): with the own phase and beat number at the start-of-frame (R138). -/
  | beatReceived (f : Heard) (sofPhase : Fin 320) (sofBeat : BitVec 8)
  /-- TILT_RECEIVED (R171). -/
  | tiltReceived (f : Heard)
  /-- GAME_RECEIVED (R171). -/
  | gameReceived (f : Heard)
  /-- EVENT_RECEIVED (R164). -/
  | eventReceived (f : Heard)
  /-- POWER_END (R16). -/
  | powerEnd (n : Out)
  /-- MAX_HOLD_EXPIRY (R18). -/
  | maxHoldExpiry (n : Out)
  /-- COOL_END (R19). -/
  | coolEnd (n : Out)
  /-- TRAIN_PULSE_END (R93). -/
  | trainPulseEnd (n : Out)
  /-- BURST_PULSE_START (R93). -/
  | burstPulseStart (n : Out)
  /-- BURST_COOL_END (R94). -/
  | burstCoolEnd (n : Out)
  /-- OPEN_CHECK_REQUEST (R21). -/
  | openCheckRequest (n : Out)
  /-- CURRENT_CONVERSION_END (R22): the raw result. -/
  | currentConversionEnd (raw : BitVec 10)
  /-- SUPPLY_SLOT (R31). -/
  | supplySlot
  /-- SUPPLY_READING_END (R33): the raw result. -/
  | supplyReadingEnd (raw : BitVec 10)
  /-- FAST_TRIP (R20): the output and its current in du. -/
  | fastTrip (n : Out) (current : Nat)
  /-- FLIPPER_TRIP (R84): the output, its current in du, and the current of the flipper's other
  output where both rise at the same instant. -/
  | flipperTrip (n : Out) (current : Nat) (partner : Option Nat)
  /-- HEAT_DECAY_PASS (R44). -/
  | heatDecayPass
  /-- ENTRY_EXPIRY (R47). -/
  | entryExpiry
  /-- AGEING_OUT (R51): the station whose record is unheard. -/
  | ageingOut (station : Fin 63)
  /-- REFRESH_EXPIRY (R65). -/
  | refreshExpiry
  /-- RAW_CHANGE (R102): the switch and the new level of its line (high?). -/
  | rawChange (sw : Sw) (high : Bool)
  /-- DEBOUNCE_END (R103). -/
  | debounceEnd (sw : Sw)
  /-- STUCK_END (R105). -/
  | stuckEnd (sw : Sw)
  /-- FLIPPER_WINDOW_END (R77). -/
  | flipperWindowEnd (f : Flip)
  /-- FLIPPER_POWER_END (R77). -/
  | flipperPowerEnd (f : Flip)
  /-- REPOWER_END (R80). -/
  | repowerEnd (f : Flip)
  /-- HOLD_LIMIT_END (R81). -/
  | holdLimitEnd (f : Flip)
  /-- WINDOW_START (R117). -/
  | windowStart (l : Lamp)
  /-- BEAT_PHASE_ZERO (R125). -/
  | beatPhaseZero
  /-- BEAT_WITHDRAW (R126). -/
  | beatWithdraw
  /-- INTEGRATING_END (R132). -/
  | integratingEnd
  deriving DecidableEq, Repr

end Sys2Proof
end

