-- ==== Sys2Proof/Decode.lean ====
section
/-!
DEFINITION. The command that a word spells. The hardware is a block: it decodes no instruction
words, and spec/opcode_table.json gives no row any bits.
-/
namespace Sys2Proof

/-- The command a word of `nbits` bits spells by the bits of spec/opcode_table.json. No row of the
table gives bits, so no word spells a command. -/
def decodeTableWord (_nbits _w : Nat) : Option Instr := none

end Sys2Proof
end

