-- ==== Sys2Proof/Config.lean ====
section
/-!
DEFINITION. The figures the manual fixes for every station, and the one free value of the model.
-/
namespace Sys2Proof.Config

/-- JOINING lasts 3000 ticks (R179). -/
def joiningTicks : Nat := 3000

/-- A STATUS frame of page 0 every 10000 ticks in UNCONFIGURED (R180). -/
def statusTicks : Nat := 10000

/-- A standing record unheard for 10000 ticks is aged out (R51). -/
def ageingTicks : Nat := 10000

/-- The refresh timer runs 2000 ticks (R65). -/
def refreshTicks : Nat := 2000

/-- The draw table holds at most 24 entries (R46). -/
def drawTableSize : Nat := 24

/-- The outgoing queue holds at most 8 frames (R149). -/
def outQueueSize : Nat := 8

/-- A 16-bit saturating counter stops at 65535 (R25, R58, R105, R154, R169, R170). -/
def counterMax : Nat := 65535

/-- A shared-slot frame is given up at its 8th acknowledge failure in a row (R152). -/
def ackFailLimit : Nat := 8

/-- TEC or REC from which the link state is PASSIVE (R156). -/
def passiveAt : Nat := 96

/-- TEC from which the link state is SILENT (R156). -/
def silentAt : Nat := 192

/-- Sequences of 12 recessive bits that complete recovery (R159). -/
def recoverySequences : Nat := 64

/-- Dominant bits driven for a STOP pattern (R144). -/
def stopBits : Nat := 32

/-- Dominant bits at which the STOP pattern is recognised (R145). -/
def stopSeen : Nat := 24

/-- Bits of an error signal (R142), and of the drive that ends a frame at a reset (R146). -/
def signalBits : Nat := 8

/-- 2 µs units in a tick of 100 µs (1.5.1, R130). -/
def unitsPerTick : Nat := 50

/-- 2 µs units in a conversion of 20 µs (2.1, R29). -/
def conversionUnits : Nat := 10

/-- FREE VALUE. The order of things that fall together, which the manual leaves open ("either may
be first": R1, R4, R107, R148). It is applied to the counter `picks` of State (log 2). -/
opaque freeOrder : Nat → Nat

end Sys2Proof.Config
end

