-- ==== Sys2Proof/Machine/Settings.lean ====
section
/-!
DEFINITION. The settings a station loads from its configuration image (Tables 1-6, 4-1, 6-1, 7-1,
12-5, 12-6) and keeps until the next reset. Types only: Machine/Image.lean reads them.
-/
namespace Sys2Proof.Machine

/-- Which block drives an output (R3). -/
inductive CoilMode where
  | unused | pulse | pulseHold | flipper
  deriving DecidableEq, Repr

/-- A coil output profile (Table 1-6, and the current offset of R35). -/
structure Profile where
  mode : CoilMode
  /-- Admission class 1–3. -/
  cls : Nat
  /-- Base power time B, in ticks. -/
  base : Nat
  /-- Hold duty, in sixteenths. -/
  duty : Nat
  /-- Max hold, in ms. -/
  maxHold : Nat
  /-- Cool time, in ticks. -/
  cool : Nat
  /-- Coil resistance R, in dΩ. -/
  res : Nat
  heatLimit : Nat
  heatDecay : Nat
  /-- Repeat depth 0–3. -/
  depth : Nat
  /-- Wait limit in ms; none is "no drop". -/
  waitLimit : Option Nat
  openThreshold : Nat
  trip : Nat
  offset : Int
  /-- Default burst size 1, 2, 4 or 8. -/
  burst : Nat
  deriving DecidableEq, Repr

/-- The settings of a flipper record (Table 4-1). -/
structure FlipSettings where
  inUse : Bool
  button : Sw
  eos : Option Sw
  power : Out
  hold : Option Out
  maxPower : Nat
  minPower : Nat
  softPower : Nat
  maxRepowers : Nat
  duty : Nat
  /-- Hold limit, in ms. -/
  holdLimit : Nat
  deriving DecidableEq, Repr

/-- The settings of a switch (Table 6-1). -/
structure SwitchSettings where
  invert : Bool
  closeDebounce : Nat
  openDebounce : Nat
  /-- Stuck check in ms; none is off. -/
  stuckCheck : Option Nat
  deriving DecidableEq, Repr

/-- A switch rule (R108). -/
structure Rule where
  inUse : Bool
  sw : Sw
  /-- Edge: close (true) or open. -/
  close : Bool
  action : Option (Fin 32)
  /-- Event code and event priority. -/
  event : Option (Byte × BitVec 3)
  deriving DecidableEq, Repr

/-- A filter bank (R165). -/
inductive Filter where
  | disabled
  | list (first : BitVec 16) (firstAction : Fin 32) (second : BitVec 16) (secondAction : Fin 32)
  | mask (value mask : BitVec 16) (action : Fin 32)
  deriving DecidableEq, Repr

/-- What a TRAIN request carries (R89). `free` false is COUNT with `n` pulses. -/
structure TrainReq where
  free : Bool
  n : Nat
  period : Nat
  burst : Option Nat
  done : Option Byte
  deriving DecidableEq, Repr

/-- What a lamp has been asked to do (Table 7-2). -/
inductive LampMode where
  | off | on | flash
  deriving DecidableEq, Repr

/-- An entry of the action table (R167). -/
inductive Action where
  | notInUse
  | fire (n : Out)
  | hold (n : Out)
  | release (n : Out)
  | train (n : Out) (req : TrainReq)
  | trainStop (n : Out) (cancel : Bool)
  | lampSet (l : Lamp) (mode : LampMode) (b : Nat) (pattern : BitVec 16)
  | raiseTilt
  | raiseSlam
  | tableStop
  | gameStart
  | gameOver
  deriving DecidableEq, Repr

/-- The settings of a lamp (Table 7-1). -/
structure LampSetting where
  preheat : Bool
  tiltGroup : Bool
  initial : Nat
  deriving DecidableEq, Repr

/-- The station settings (Table 12-5, addresses 3–18). -/
structure StationSettings where
  rate500 : Bool
  beatSender : Bool
  /-- Table peak limit L, in du. -/
  limL : Nat
  /-- Flipper reserve F, in du. -/
  resF : Nat
  /-- Solo limit S, in du. -/
  soloS : Nat
  vnom : Nat
  /-- Undervoltage threshold U, in dV. -/
  under : Nat
  offset : Int
  scale : Nat
  /-- Skip guard, in ms. -/
  skipGuard : Nat
  /-- Beat resync width J, in ticks. -/
  resync : Nat
  deriving DecidableEq, Repr

/-- Everything the image holds (Table 12-5). -/
structure Settings where
  station : StationSettings
  profiles : Bank Profile 16
  flippers : Bank FlipSettings 4
  switches : Bank SwitchSettings 24
  rules : Bank Rule 32
  filters : Bank Filter 16
  actions : Bank Action 32
  lamps : Bank LampSetting 16
  deriving DecidableEq, Repr

/-- A profile before any image is accepted: UNUSED (R27, log 5). -/
def Profile.blank : Profile :=
  ⟨.unused, 0, 0, 0, 0, 0, 0, 0, 0, 0, none, 0, 0, 0, 1⟩

/-- A flipper record before any image is accepted: not in use (log 5). -/
def FlipSettings.blank : FlipSettings :=
  ⟨false, 0, none, 0, none, 0, 0, 0, 0, 0, 0⟩

/-- A rule before any image is accepted: not in use (log 5). -/
def Rule.blank : Rule := ⟨false, 0, false, none, none⟩

/-- The settings before any image is accepted: filters and actions empty (R169), everything else
blank (log 5). -/
def Settings.blank : Settings where
  station := ⟨false, false, 0, 0, 0, 0, 0, 0, 0, 0, 0⟩
  profiles := .fill 16 .blank
  flippers := .fill 4 .blank
  switches := .fill 24 ⟨false, 0, 0, none⟩
  rules := .fill 32 .blank
  filters := .fill 16 .disabled
  actions := .fill 32 .notInUse
  lamps := .fill 16 ⟨false, false, 0⟩

end Sys2Proof.Machine
end

