-- ==== Sys2Proof/Machine/State.lean ====
section
/-!
DEFINITION. Everything the station holds, as plain data, and its state after reset.
-/
namespace Sys2Proof.Machine

/-! ### Coil sequencer (Chapters 1 and 5) -/

/-- States of an output (Table 1-7). -/
inductive ChanState where
  | off | queued | power | hold | cool | gap | fault | flipper
  deriving DecidableEq, Repr

/-- Fault kinds (R23). -/
inductive FaultKind where
  | none | short | open
  deriving DecidableEq, Repr

/-- The figures of a running burst (Table 5-1). `grantAt` is the grant tick its pulses are timed
from (R93). -/
structure Burst where
  kPrime : Nat
  period : Nat
  t : Nat
  started : Nat
  grantAt : Tick
  deriving DecidableEq, Repr

/-- A train record (Table 5-1). -/
structure Train where
  free : Bool
  remaining : Nat
  period : Nat
  size : Nat
  done : Option Byte
  stopRequested : Bool
  fired : Nat
  wrap : Bool
  burst : Option Burst
  deriving DecidableEq, Repr

/-- A coil output channel record (Table 1-7). `powerStart` names the POWER phase (R29), `holdStart`
is where the PWM period of HOLD began (R5), `checkDue` is the scheduled open-check request (R21). -/
structure Channel where
  state : ChanState
  repeats : Nat
  holdWanted : Bool
  overflow : Bool
  heat : Nat
  t : Nat
  draw : Nat
  phaseEnd : Tick
  powerStart : Tick
  holdStart : Tick
  holdDraw : Nat
  checkDue : Option Tick
  openPending : Bool
  openCount : Nat
  faultKind : FaultKind
  holdTimeouts : Nat
  train : Option Train
  deriving DecidableEq, Repr

/-- An entry of the pending queue (R9). `burst` says its kind is BURST; the k′ of that kind is read
from the train record (R91). -/
structure Entry where
  output : Out
  cls : Nat
  arrival : Tick
  burst : Bool
  waits : Bool
  inFlight : Bool
  guard : Bool
  override : Option Nat
  deriving DecidableEq, Repr

/-- The coil sequencer. -/
structure Coils where
  chan : Bank Channel 16
  queue : List Entry
  busyDrop : Nat
  waitDrop : Nat
  unchecked : Nat
  deriving DecidableEq, Repr

/-! ### Sense converter (Chapter 2) -/

/-- Supply states (R33). -/
inductive SupplyState where
  | normal | low
  deriving DecidableEq, Repr

/-- The waiting supply reading (R29, R30): `overdue` once the slot after its own has fallen. -/
inductive SupplyWait where
  | none | waiting | overdue
  deriving DecidableEq, Repr

/-- What the converter is converting; a current conversion names its POWER phase (R29). -/
inductive Job where
  | supply
  | current (n : Out) (phase : Tick)
  deriving DecidableEq, Repr

/-- A conversion in progress and the 2 µs units it has left (R29). -/
structure Conversion where
  job : Job
  left : Nat
  deriving DecidableEq, Repr

/-- The sense converter and its arbiter. -/
structure Sense where
  supply : Nat
  supplyState : SupplyState
  lowCount : Nat
  goodCount : Nat
  last : Bank Nat 16
  waitSupply : SupplyWait
  waitCurrent : Bank (Option Tick) 16
  conv : Option Conversion
  deriving DecidableEq, Repr

/-! ### Draw budget unit (Chapter 3) -/

/-- A claim entry of the draw table (Table 3-1). -/
structure DrawEntry where
  source : BitVec 6
  output : Out
  draw : Nat
  expiry : Tick
  withdrawn : Bool
  deriving DecidableEq, Repr

/-- A standing record (Table 3-2). -/
structure Standing where
  draw : Nat
  lastHeard : Tick
  present : Bool
  deriving DecidableEq, Repr

/-- The claim in flight (R56). Its frame condition is that of the frame in slot 0. `burst` holds k′
and the burst period of a BURST entry. -/
structure Claim where
  output : Out
  cls : Nat
  draw : Nat
  t : Nat
  burst : Option (Nat × Nat)
  duration : Nat
  withdrawn : Bool
  deriving DecidableEq, Repr

/-- The draw budget unit. The refresh timer holds the tick it runs out at, or is stopped. -/
structure Budget where
  table : List DrawEntry
  standing : Bank Standing 63
  claim : Option Claim
  refresh : Option Tick
  deny : Nat
  deriving DecidableEq, Repr

/-! ### Flippers (Chapter 4) -/

/-- Flipper states (Table 4-2). -/
inductive FlipState where
  | rest | power | hold | repower
  deriving DecidableEq, Repr

/-- A flipper record's running state (Table 4-2). `periodStart` is where its PWM period began
(R74). -/
structure Flipper where
  state : FlipState
  timed : Bool
  phaseEnd : Tick
  windowEnd : Tick
  repowers : Nat
  limitEnd : Option Tick
  reduced : Bool
  faulty : Bool
  closedCount : Nat
  disabled : Bool
  periodStart : Tick
  deriving DecidableEq, Repr

/-! ### Switches (Chapter 6) -/

/-- Debounced states (Table 6-2). -/
inductive SwState where
  | open | closing | closed | opening | stuck
  deriving DecidableEq, Repr

/-- A switch record (Table 6-2). -/
structure Switch where
  state : SwState
  debounceEnd : Option Tick
  stuckEnd : Option Tick
  deriving DecidableEq, Repr

/-- The switch scanner. -/
structure Scanner where
  sw : Bank Switch 24
  stuckCount : Nat
  deriving DecidableEq, Repr

/-! ### Lamps and beat (Chapter 7) -/

/-- A lamp record (Table 7-2). -/
structure LampRec where
  mode : LampMode
  b : Nat
  pattern : BitVec 16
  preheat : Bool
  tiltGroup : Bool
  step : Nat
  left : Nat
  duty : Nat
  lit : Bool
  deriving DecidableEq, Repr

/-- The lamp controller: the lamp records, the lamp period position and the beat timer. -/
structure Lamps where
  lamps : Bank LampRec 16
  pos : Nat
  beatOn : Bool
  phase : Nat
  beat : BitVec 8
  deriving DecidableEq, Repr

/-! ### Link (Chapters 8 and 9) -/

/-- A frame (Table 8-1): the arbitration field and the payload. -/
structure Frame where
  prio : BitVec 3
  kind : BitVec 5
  source : BitVec 6
  payload : List Byte
  deriving DecidableEq, Repr

/-- A frame held in a transmit slot (R147). -/
structure Slot where
  frame : Frame
  onWire : Bool
  ackFails : Nat
  deriving DecidableEq, Repr

/-- Bus phases (R132). -/
inductive BusPhase where
  | integrating | idle | frame | errorSignal | errorDelimiter | interframe | stop
  deriving DecidableEq, Repr

/-- Link states (R156). -/
inductive LinkState where
  | active | passive | silent
  deriving DecidableEq, Repr

/-- The frame in progress on the link, as this station reads it (R131–R138). `bits` are the bits
taken with stuff bits removed, first bit first (true is recessive); `tail` counts the bits taken
since the check, once it is past. -/
structure Progress where
  transmitting : Bool
  sofTick : Tick
  sofPhase : Nat
  sofBeat : BitVec 8
  bits : List Bool
  runLevel : Bool
  runLen : Nat
  tail : Option Nat
  checkBad : Bool
  deriving DecidableEq, Repr

/-- An error found and not yet settled (R143). `recessive` is the level of the bit it was found at: an
error found at a dominant bit lies in that bit's dominant run. -/
structure FoundError where
  kind : ErrKind
  transmit : Bool
  tick : Tick
  recessive : Bool
  deriving DecidableEq, Repr

/-- The link controller. -/
structure Link where
  started : Bool
  rate500 : Bool
  phase : BusPhase
  state : LinkState
  TEC : Nat
  REC : Nat
  slots : Bank (Option Slot) 4
  outq : List Frame
  txDrop : Nat
  recovery : Nat
  partialRun : Nat
  /-- Consecutive recessive bits taken in the present phase (R132). -/
  recRun : Nat
  /-- Consecutive dominant bits taken (R145). -/
  domRun : Nat
  rx : Option Progress
  err : Option FoundError
  /-- Bits of the error signal still to send, and whether those after its first bit are dominant
  (R142). -/
  sigLeft : Nat
  sigDominant : Bool
  /-- Bits of the STOP pattern still to drive (R144). -/
  stopLeft : Nat
  /-- Dominant bits still to drive after an assertion of the reset line (R146). -/
  resetLeft : Nat
  deriving DecidableEq, Repr

/-! ### Router, play control and start loader (Chapters 10 to 12) -/

/-- The event router's counters (R169). Filters and actions stand among the settings. -/
structure Router where
  unmatched : Nat
  badCommand : Nat
  deriving DecidableEq, Repr

/-- Play states (R170). -/
inductive PlayState where
  | idle | play | tilt | slam
  deriving DecidableEq, Repr

/-- Play control (R170). -/
structure Play where
  state : PlayState
  stopped : Bool
  tiltDrop : Nat
  deriving DecidableEq, Repr

/-- Station states (12.1). -/
inductive StationState where
  | reset | loading | joining | run | unconfigured
  deriving DecidableEq, Repr

/-- Configuration reasons (12.1). -/
inductive Reason where
  | none | badStation | format | sum | field
  deriving DecidableEq, Repr

/-- The start loader: besides its two items, the station number it read (R177), the end of JOINING
(R179), the next STATUS of UNCONFIGURED (R180) and the level of the reset line. -/
structure Loader where
  station : StationState
  reason : Reason
  number : BitVec 6
  joinEnd : Tick
  statusDue : Tick
  resetLow : Bool
  deriving DecidableEq, Repr

/-! ### Time and inputs -/

/-- Events that fall at a tick by the tick count alone, not yet taken at this tick (R31, R44, R116,
R125). -/
inductive Falling where
  | supplySlot
  | heatDecay
  | window (l : Lamp)
  | beatZero (beat : BitVec 8)
  deriving DecidableEq, Repr

/-- A coming bit of the link as the outside makes it: another station drives it dominant (R130), and
this station's own drive does not reach the pair at it (a loose connector, 9.7; log 6). -/
structure Wire where
  dominant : Bool
  cut : Bool
  deriving DecidableEq, Repr

/-- The inputs of the station: the level of each switch line (true is high, R101), the raw results
its sense inputs would give (R32, R35), and the coming bits of the link. -/
structure Lines where
  sw : Bank Bool 24
  supplyRaw : BitVec 10
  currentRaw : Bank (BitVec 10) 16
  linkIn : List Wire
  deriving DecidableEq, Repr

/-- The whole station. -/
structure State where
  tick : Tick
  /-- 2 µs units within the tick. -/
  unit : Nat
  /-- A link bit falls at this instant and is not yet taken. -/
  bitDue : Bool
  falling : List Falling
  /-- The PULSE_HOLD outputs whose POWER ran out at this instant (R16, log 44). -/
  powerEnded : List Out
  /-- Counter that feeds `Config.freeOrder`. -/
  picks : Nat
  lines : Lines
  cfg : Settings
  sl : Loader
  cs : Coils
  sc : Sense
  db : Budget
  fl : Bank Flipper 4
  sw : Scanner
  lp : Lamps
  lc : Link
  er : Router
  pc : Play
  /-- The commands that wait, first in first out. -/
  pending : List Instr
  deriving DecidableEq, Repr

/-- Reasons to stop with a fault: none. The manual gives every event of the station an effect, or
states that it has none (log 17). -/
inductive Fault where
  deriving DecidableEq, Repr

/-- Reasons to refuse a command. -/
inductive Refusal where
  /-- Raised by the dispatch for a command with no meaning yet; safe: the model stops where the
  station goes on. No arm raises it now. -/
  | notModelled (mnemonic : String)
  deriving DecidableEq, Repr

/-! ### Reset values -/

/-- A channel after a power-on reset (R27; figures the manual gives no value: 0, log 5). -/
def Channel.reset : Channel :=
  ⟨.off, 0, false, false, 0, 0, 0, 0, 0, 0, 0, none, false, 0, .none, 0, none⟩

/-- CS after a power-on reset (R27). -/
def Coils.reset : Coils := ⟨.fill 16 .reset, [], 0, 0, 0⟩

/-- SC after either reset (R37). -/
def Sense.reset : Sense := ⟨0, .low, 0, 0, .fill 16 0, .none, .fill 16 none, none⟩

/-- DB after either reset (R71). -/
def Budget.reset : Budget := ⟨[], .fill 63 ⟨0, 0, false⟩, none, none, 0⟩

/-- A flipper record after either reset (R88). -/
def Flipper.reset : Flipper := ⟨.rest, false, 0, 0, 0, none, false, false, 0, false, 0⟩

/-- SW after either reset (R114). -/
def Scanner.reset : Scanner := ⟨.fill 24 ⟨.open, none, none⟩, 0⟩

/-- A lamp record after either reset (R123). -/
def LampRec.reset : LampRec := ⟨.off, 0, 0, false, false, 0, 0, 0, false⟩

/-- LP after either reset (R123, R129). -/
def Lamps.reset : Lamps := ⟨.fill 16 .reset, 0, false, 0, 0⟩

/-- LC after either reset (R146, R160). -/
def Link.reset : Link :=
  ⟨false, false, .integrating, .active, 0, 0, .fill 4 none, [], 0, 0, 0, 0, 0, none, none, 0,
    false, 0, 0⟩

/-- The input levels at reset: switch lines high, sense inputs 0, no other station driving the link
(log 4). -/
def Lines.reset : Lines := ⟨.fill 24 true, 0, .fill 16 0, []⟩

/-- The station right after a power-on reset, with the reset line still low (R177, log 4). -/
def State.reset : State where
  tick := 0
  unit := 0
  bitDue := false
  falling := []
  powerEnded := []
  picks := 0
  lines := .reset
  cfg := .blank
  sl := ⟨.reset, .none, 0, 0, 0, true⟩
  cs := .reset
  sc := .reset
  db := .reset
  fl := .fill 4 .reset
  sw := .reset
  lp := .reset
  lc := .reset
  er := ⟨0, 0⟩
  pc := ⟨.idle, false, 0⟩
  pending := []

end Sys2Proof.Machine
end

