-- ==== Sys2Proof/Machine/Flags.lean ====
section
/-!
DEFINITION. Counters, flags and the states that are decided from them: the saturating counters, the
error counts and the link state, the supply state, the play state table.
-/
namespace Sys2Proof.Machine

/-- A saturating count (R2). -/
def satAdd (max a b : Nat) : Nat := min max (a + b)

/-- A 16-bit saturating counter raised by one (R25, R58, R105, R154, R169, R170). -/
def bump (c : Nat) : Nat := satAdd Config.counterMax c 1

/-- The link state decided anew from the counts (R156). SILENT is left only by recovery. -/
def decideLink (before : LinkState) (tec rec : Nat) : LinkState :=
  match before with
  | .silent => .silent
  | _ =>
    if Config.silentAt ≤ tec then .silent
    else if Config.passiveAt ≤ tec ∨ Config.passiveAt ≤ rec then .passive
    else .active

/-- The counts after a change, with the link state decided anew (R155, R156). -/
def Link.withCounts (lc : Link) (tec rec : Nat) : Link :=
  { lc with TEC := tec, REC := rec, state := decideLink lc.state tec rec }

/-- A transmit error handed to the counts (R155): nothing in SILENT, nothing for an acknowledge
error in PASSIVE, 8 otherwise. -/
def Link.countTransmitError (lc : Link) (kind : ErrKind) : Link :=
  match lc.state, kind with
  | .silent, _ => lc
  | .passive, .ack => lc
  | _, _ => lc.withCounts (satAdd 255 lc.TEC 8) lc.REC

/-- A successful transmit (R155). -/
def Link.countTransmit (lc : Link) : Link :=
  if lc.state = .silent then lc else lc.withCounts (lc.TEC - 1) lc.REC

/-- A receive error (R155). -/
def Link.countReceiveError (lc : Link) : Link :=
  lc.withCounts lc.TEC (satAdd 255 lc.REC 1)

/-- A successful receive (R155). -/
def Link.countReceive (lc : Link) : Link :=
  lc.withCounts lc.TEC (lc.REC - 1)

/-- The supply state and its two consecutive counts after a reading of V dV against the threshold U
(R33). -/
def supplyCounts (sc : Sense) (under v : Nat) : Sense :=
  match sc.supplyState with
  | .normal =>
    if v < under then
      if sc.lowCount + 1 = 3 then { sc with supplyState := .low, lowCount := 0, goodCount := 0 }
      else { sc with lowCount := sc.lowCount + 1 }
    else { sc with lowCount := 0 }
  | .low =>
    if under + 20 ≤ v then
      if sc.goodCount + 1 = 3 then
        { sc with supplyState := .normal, lowCount := 0, goodCount := 0 }
      else { sc with goodCount := sc.goodCount + 1 }
    else { sc with goodCount := 0 }

/-- What a TILT or a GAME frame says (R171, Table 12-2). -/
inductive PlayFrame where
  | tilt | slam | start | over
  deriving DecidableEq, Repr

/-- The play state after a TILT or GAME frame (Table 11-1). -/
def PlayFrame.next : PlayFrame → PlayState → PlayState
  | .tilt, .idle => .tilt
  | .tilt, .play => .tilt
  | .tilt, p => p
  | .slam, _ => .slam
  | .start, .idle => .play
  | .start, .tilt => .play
  | .start, p => p
  | .over, .play => .idle
  | .over, .tilt => .idle
  | .over, p => p

/-- The stopped flag after a TILT or GAME frame (Table 11-1). -/
def PlayFrame.stopped : PlayFrame → Bool → Bool
  | .tilt, b => b
  | .slam, b => b
  | .start, _ => false
  | .over, _ => false

/-- A class is disabled by the play state (Table 11-2). -/
def classDisabled (p : PlayState) (cls : Nat) : Bool :=
  match p with
  | .idle => false
  | .play => false
  | .tilt => cls ≤ 1
  | .slam => cls ≤ 2

/-- Status code of an output (Table 1-5); `claimed` says its entry is in flight. -/
def statusCode (st : ChanState) (claimed : Bool) : Nat :=
  match st with
  | .off => 0
  | .queued => if claimed then 2 else 1
  | .power => 3
  | .hold => 4
  | .cool => 5
  | .gap => 6
  | .fault => 7
  | .flipper => 8

/-- Codes of Table 12-3. -/
def StationState.code : StationState → Nat
  | .reset => 0 | .loading => 1 | .joining => 2 | .run => 3 | .unconfigured => 4

/-- Codes of Table 12-3. -/
def Reason.code : Reason → Nat
  | .none => 0 | .badStation => 1 | .format => 2 | .sum => 3 | .field => 4

/-- Codes of Table 12-3; bit 7 set while stopped. -/
def Play.code (p : Play) : Nat :=
  (match p.state with | .idle => 0 | .play => 1 | .tilt => 2 | .slam => 3) +
    (if p.stopped then 128 else 0)

/-- Codes of Table 12-3. -/
def LinkState.code : LinkState → Nat
  | .active => 0 | .passive => 1 | .silent => 2

/-- Codes of Table 12-3. -/
def SupplyState.code : SupplyState → Nat
  | .normal => 0 | .low => 1

/-- Codes of Table 12-3. -/
def FaultKind.code : FaultKind → Nat
  | .none => 0 | .short => 1 | .open => 2

/-- Codes of Table 12-3. -/
def FlipState.code : FlipState → Nat
  | .rest => 0 | .power => 1 | .hold => 2 | .repower => 3

end Sys2Proof.Machine
end

