-- ==== Sys2Proof/Machine/Operands.lean ====
section
/-!
DEFINITION. The arithmetic of Chapter 2, tick comparison, the named fields of frames, and the
reading of command frames with the checks of R162.
-/
namespace Sys2Proof.Machine

/-! ### Numbers (R1, R2) -/

/-- Integer division rounded up (R2). -/
def ceilDiv (a b : Nat) : Nat := (a + b - 1) / b

/-- clamp of R2, of a whole number that may be negative, into 0–`hi`. -/
def clampTo (hi : Nat) (x : Int) : Nat := min hi x.toNat

/-- An expiry tick is reached: the wrap-safe difference lies in the lower half (R1). -/
def reached (now expiry : Tick) : Bool := (now - expiry).toNat < 2 ^ 31

/-- Ticks from `since` to `now` (R1). -/
def age (now since : Tick) : Nat := (now - since).toNat

/-- The tick `d` ticks after `t` (R1). -/
def after (t : Tick) (d : Nat) : Tick := t + BitVec.ofNat 32 d

/-- ms in ticks (Table 1-2). -/
def ms (n : Nat) : Nat := 10 * n

/-! ### Pulse arithmetic (R38–R42) -/

/-- The draw of a pulse on a coil of R dΩ (R38). -/
def drawOf (res vnom v : Nat) : Nat :=
  max 1 (min 4095 (ceilDiv (max v vnom * 100) res))

/-- The hold draw of an output held at `duty` sixteenths (R39). -/
def holdDrawOf (draw duty : Nat) : Nat := ceilDiv (draw * duty) 16

/-- The stretched power time (R40). -/
def stretch (base vnom v : Nat) : Nat :=
  let t :=
    if vnom ≤ v then base
    else if 2 * v ≤ vnom then 2 * base
    else ceilDiv (base * vnom) v
  min t (min (2 * base) 2000)

/-- k halved, each halving rounded down, until `ok k` or k is 1 (R10, R42). -/
def halve (ok : Nat → Bool) : Nat → Nat → Nat
  | 0, k => k
  | fuel + 1, k => if ok k ∨ k ≤ 1 then k else halve ok fuel (k / 2)

/-- Duration of a burst of k pulses (R42). -/
def burstDuration (k period t : Nat) : Nat := (k - 1) * period + t

/-- k′ after the halving for duration (R42, R91 step 4). -/
def fitDuration (k period t : Nat) : Nat :=
  halve (fun j => burstDuration j period t ≤ 65535) k k

/-- k′ after the halving for heat (R10, R91 step 5). -/
def fitHeat (k t limit : Nat) : Nat :=
  halve (fun j => j * t ≤ limit) k k

/-- The heat test (R10): `k` is 1 for a SINGLE entry. -/
def heatTest (heat limit k t : Nat) : Bool :=
  let j := fitHeat k t limit
  if j * t ≤ limit then heat + j * t ≤ limit else heat = 0

/-! ### Frames (Tables 8-2 and 12-2) -/

/-- The low byte of a number. -/
def byte (n : Nat) : Byte := BitVec.ofNat 8 n

/-- A 16-bit number, most significant byte first (R182). -/
def word (n : Nat) : List Byte := [byte (n / 256), byte n]

/-- Payload byte `i`, numbered from 1 (R182); 0 where the frame has none. -/
def pByte (p : List Byte) (i : Nat) : Nat := (p.getD (i - 1) 0).toNat

/-- Payload bytes `i` and `i + 1` as a 16-bit number (R182). -/
def pWord (p : List Byte) (i : Nat) : Nat := pByte p i * 256 + pByte p (i + 1)

/-- The arbitration field as a number (R182): priority × 2048 + kind × 64 + source. -/
def Frame.arbitration (f : Frame) : Nat :=
  f.prio.toNat * 2048 + f.kind.toNat * 64 + f.source.toNat

/-- BEAT (Table 8-2). -/
def beatFrame (own : BitVec 6) (beat : BitVec 8) : Frame := ⟨0, 0, own, [beat]⟩

/-- TILT or GAME (R172). -/
def playFrame (own : BitVec 6) : PlayFrame → Frame
  | .tilt => ⟨0, 1, own, [1]⟩
  | .slam => ⟨0, 1, own, [2]⟩
  | .start => ⟨2, 2, own, [1]⟩
  | .over => ⟨2, 2, own, [2]⟩

/-- CLAIM (R56). -/
def claimFrame (own : BitVec 6) (cls : Nat) (output : Out) (draw duration : Nat) : Frame :=
  ⟨BitVec.ofNat 3 cls, 3, own, byte output.val :: (word draw ++ word duration)⟩

/-- STANDING (R65). -/
def standingFrame (own : BitVec 6) (draw : Nat) : Frame := ⟨4, 4, own, word draw⟩

/-- FAULT NOTICE (R23). -/
def faultFrame (own : BitVec 6) (output : Out) (kind : FaultKind) : Frame :=
  ⟨4, 5, own, [byte output.val, byte kind.code]⟩

/-- One part of a STATUS page (R181, Table 12-2). -/
def statusFrame (own : BitVec 6) (page part : Nat) (contents : List Byte) : Frame :=
  ⟨6, 6, own, byte (part * 32 + page) :: contents⟩

/-- The answer to a QUERY of a page above 22 (R181). -/
def noPageFrame (own : BitVec 6) (page : Nat) : Frame := ⟨6, 6, own, [byte page]⟩

/-- EVENT (R99, R111). -/
def eventFrame (own : BitVec 6) (prio : BitVec 3) (switch : Nat) (close : Bool) (code : Byte) :
    Frame :=
  ⟨prio, 8, own, [byte switch, if close then 1 else 0, code]⟩

/-- The play change a TILT or GAME payload names; none for a code not assigned (R171). -/
def playFrameOf (kind : BitVec 5) (p : List Byte) : Option PlayFrame :=
  match p with
  | [] => none
  | b :: _ =>
    if kind = 1 then
      if b = 1 then some .tilt else if b = 2 then some .slam else none
    else if kind = 2 then
      if b = 1 then some .start else if b = 2 then some .over else none
    else none

/-- The event key (R164). -/
def eventKey (source : BitVec 6) (close : Bool) (code : Byte) : BitVec 16 :=
  BitVec.ofNat 16 (source.toNat * 1024 + (if close then 512 else 0) + code.toNat)

/-! ### Commands (R161, R162) -/

/-- The kinds of command frame. -/
inductive CommandKind where
  | fire | hold | release | train | trainStop | lamp | clear | query
  deriving DecidableEq, Repr

/-- A coil request (R4). -/
inductive Request where
  | fire (override : Option Nat)
  | hold
  | release
  | train (req : TrainReq)
  | trainStop (cancel : Bool)
  deriving DecidableEq, Repr

/-- A well-formed command (R163). -/
inductive Command where
  | coil (n : Out) (r : Request)
  | lampSet (l : Lamp) (mode : LampMode) (b : Nat) (pattern : BitVec 16)
  | clear (n : Out)
  | query (page : Nat)
  deriving DecidableEq, Repr

/-- The output of a CS output's mode (R3). -/
def CoilMode.isCS : CoilMode → Bool
  | .pulse => true
  | .pulseHold => true
  | .unused => false
  | .flipper => false

/-- An output number 0–15. -/
def outOf (n : Nat) : Option Out := if h : n < 16 then some ⟨n, h⟩ else none

/-- Payload byte 2 as a CS output (R162). -/
def coilOf (cfg : Settings) (p : List Byte) : Option Out :=
  match outOf (pByte p 2) with
  | some n => if (cfg.profiles.get n).mode.isCS then some n else none
  | none => none

/-- Burst size field of a TRAIN command (R162): 0 is absent. -/
def burstField (n : Nat) : Option (Option Nat) :=
  if n = 0 then some none
  else if n = 1 ∨ n = 2 ∨ n = 4 ∨ n = 8 then some (some n)
  else none

/-- Lamp mode code (Table 12-2). -/
def lampModeOf (n : Nat) : Option LampMode :=
  if n = 0 then some .off else if n = 1 then some .on else if n = 2 then some .flash else none

/-- The TRAIN request of a TRAIN command of at least 7 bytes (R162). -/
def trainReqOf (p : List Byte) : Option TrainReq :=
  match burstField (pByte p 7) with
  | none => none
  | some burst =>
    let done := if 8 ≤ p.length then some (byte (pByte p 8)) else none
    let period := pWord p 5
    if 10 ≤ period ∧ period ≤ 10000 then
      if pByte p 3 = 0 then
        if 1 ≤ pByte p 4 then some ⟨false, pByte p 4, period, burst, done⟩ else none
      else if pByte p 3 = 1 then some ⟨true, 0, period, burst, done⟩
      else none
    else none

/-- A command read from its payload with the checks of R162; none is malformed. A page above 22 is
answered all the same (R181), so it is read here and counted where it is handed on. -/
def readCommand (cfg : Settings) (k : CommandKind) (p : List Byte) : Option Command :=
  match k with
  | .fire =>
    if p.length = 2 then (coilOf cfg p).map (.coil · (.fire none))
    else if 4 ≤ p.length ∧ 1 ≤ pWord p 3 ∧ pWord p 3 ≤ 2000 then
      (coilOf cfg p).map (.coil · (.fire (some (pWord p 3))))
    else none
  | .hold => if 2 ≤ p.length then (coilOf cfg p).map (.coil · .hold) else none
  | .release => if 2 ≤ p.length then (coilOf cfg p).map (.coil · .release) else none
  | .train =>
    if 7 ≤ p.length then
      match coilOf cfg p, trainReqOf p with
      | some n, some req => some (.coil n (.train req))
      | _, _ => none
    else none
  | .trainStop =>
    if 3 ≤ p.length ∧ pByte p 3 ≤ 1 then
      (coilOf cfg p).map (.coil · (.trainStop (pByte p 3 = 1)))
    else none
  | .lamp =>
    if 6 ≤ p.length ∧ pByte p 4 ≤ 15 then
      match outOf (pByte p 2), lampModeOf (pByte p 3) with
      | some l, some mode => some (.lampSet l mode (pByte p 4) (BitVec.ofNat 16 (pWord p 5)))
      | _, _ => none
    else none
  | .clear =>
    if 2 ≤ p.length then
      match outOf (pByte p 2) with
      | some n => if (cfg.profiles.get n).mode = .unused then none else some (.clear n)
      | none => none
    else none
  | .query => if 2 ≤ p.length then some (.query (pByte p 2)) else none

/-- The frame is addressed to this station or to every station (R161). -/
def addressed (own : BitVec 6) (p : List Byte) : Bool :=
  pByte p 1 = own.toNat ∨ pByte p 1 = 63

end Sys2Proof.Machine
end

