-- ==== Sys2Proof/Machine/Image.lean ====
section
/-!
DEFINITION. Reading and checking the configuration image (R72, R108, R165, R167, R178, R182; Tables
12-1, 12-5, 12-6).
-/
namespace Sys2Proof.Machine

/-- `n` bytes as the station clocks them in; what the memory does not drive reads as 255 (R178). -/
def clocked (n : Nat) (image : List Byte) : List Byte :=
  (image ++ List.replicate n 255).take n

/-- Byte `i` of a record (from 0). -/
def rByte (r : List Byte) (i : Nat) : Nat := (r.getD i 0).toNat

/-- Bytes `i` and `i + 1` of a record, most significant first. -/
def rWord (r : List Byte) (i : Nat) : Nat := rByte r i * 256 + rByte r (i + 1)

/-- A signed byte of a record, two's complement (R182). -/
def rSigned (r : List Byte) (i : Nat) : Int := (r.getD i 0).toInt

/-- Bits `hi`–`lo` of a byte. -/
def bitsOf (b hi lo : Nat) : Nat := b / 2 ^ lo % 2 ^ (hi - lo + 1)

/-- A bit of a byte. -/
def bitOf (b i : Nat) : Bool := b / 2 ^ i % 2 = 1

/-- Record `i` of `size` bytes in a section that begins at `base`. -/
def record (image : List Byte) (base size i : Nat) : List Byte :=
  (image.drop (base + size * i)).take size

/-- A number as a `Fin`; 0 where it is out of range, which the field check refuses wherever the
number is used. -/
def finOf (n v : Nat) [NeZero n] : Fin n := Fin.ofNat n v

/-! ### Records (Table 12-6) -/

/-- Burst codes: 0 to 3 for 1, 2, 4, 8. -/
def burstOf (code : Nat) : Nat := 2 ^ code

/-- A coil profile. -/
def readProfile (r : List Byte) : Profile where
  mode := match bitsOf (rByte r 0) 1 0 with
    | 0 => .unused
    | 1 => .pulse
    | 2 => .pulseHold
    | _ => .flipper
  cls := bitsOf (rByte r 0) 3 2
  burst := burstOf (bitsOf (rByte r 0) 5 4)
  depth := bitsOf (rByte r 0) 7 6
  base := rWord r 1
  duty := rByte r 3
  maxHold := rWord r 4
  cool := rWord r 6
  res := rWord r 8
  heatLimit := rWord r 10
  heatDecay := rByte r 12
  waitLimit := if rWord r 13 = 0 then none else some (rWord r 13)
  openThreshold := rWord r 15
  trip := rWord r 17
  offset := rSigned r 19

/-- A flipper record. -/
def readFlipper (r : List Byte) : FlipSettings where
  inUse := bitOf (rByte r 0) 7
  button := finOf 24 (bitsOf (rByte r 0) 4 0)
  eos := if rByte r 1 = 255 then none else some (finOf 24 (rByte r 1))
  power := finOf 16 (rByte r 2)
  hold := if rByte r 3 = 255 then none else some (finOf 16 (rByte r 3))
  maxPower := rWord r 4
  minPower := rWord r 6
  softPower := rWord r 8
  maxRepowers := bitsOf (rByte r 10) 5 4
  duty := bitsOf (rByte r 10) 3 0
  holdLimit := rWord r 11

/-- A switch setting. -/
def readSwitch (r : List Byte) : SwitchSettings where
  invert := bitOf (rByte r 0) 0
  closeDebounce := rByte r 1
  openDebounce := rByte r 2
  stuckCheck := if rWord r 3 = 0 then none else some (rWord r 3)

/-- A switch rule. -/
def readRule (r : List Byte) : Rule where
  inUse := bitOf (rByte r 0) 0
  sw := finOf 24 (rByte r 1)
  close := bitOf (rByte r 0) 1
  action := if bitOf (rByte r 0) 2 then some (finOf 32 (rByte r 2)) else none
  event :=
    if bitOf (rByte r 0) 3 then
      some (byte (rByte r 3), BitVec.ofNat 3 (bitsOf (rByte r 0) 6 4))
    else none

/-- A filter. -/
def readFilter (r : List Byte) : Filter :=
  match rByte r 0 with
  | 1 => .list (BitVec.ofNat 16 (rWord r 1)) (finOf 32 (rByte r 3)) (BitVec.ofNat 16 (rWord r 4))
      (finOf 32 (rByte r 6))
  | 2 => .mask (BitVec.ofNat 16 (rWord r 1)) (BitVec.ofNat 16 (rWord r 4)) (finOf 32 (rByte r 3))
  | _ => .disabled

/-- The TRAIN parameters of an action. -/
def readTrain (r : List Byte) : TrainReq where
  free := bitOf (rByte r 2) 0
  n := rByte r 3
  period := rWord r 4
  burst :=
    if bitsOf (rByte r 2) 4 2 = 0 then none else some (burstOf (bitsOf (rByte r 2) 4 2 - 1))
  done := if bitOf (rByte r 2) 1 then some (byte (rByte r 6)) else none

/-- An action. -/
def readAction (r : List Byte) : Action :=
  let n : Out := finOf 16 (rByte r 1)
  match rByte r 0 with
  | 1 => .fire n
  | 2 => .hold n
  | 3 => .release n
  | 4 => .train n (readTrain r)
  | 5 => .trainStop n (rByte r 2 = 1)
  | 6 => .lampSet n ((lampModeOf (rByte r 2)).getD .off) (rByte r 3) (BitVec.ofNat 16 (rWord r 4))
  | 7 => .raiseTilt
  | 8 => .raiseSlam
  | 9 => .tableStop
  | 10 => .gameStart
  | 11 => .gameOver
  | _ => .notInUse

/-- A lamp setting. -/
def readLamp (r : List Byte) : LampSetting where
  preheat := bitOf (rByte r 0) 7
  tiltGroup := bitOf (rByte r 0) 6
  initial := bitsOf (rByte r 0) 3 0

/-- The station settings (Table 12-5). -/
def readStation (r : List Byte) : StationSettings where
  rate500 := bitOf (rByte r 0) 0
  beatSender := bitOf (rByte r 0) 1
  limL := rWord r 1
  resF := rWord r 3
  soloS := rWord r 5
  vnom := rWord r 7
  under := rWord r 9
  offset := rSigned r 11
  scale := rByte r 12
  skipGuard := rWord r 13
  resync := rByte r 15

/-! ### The image map (Table 12-5) -/

/-- The station settings' 16 bytes. -/
def stationRec (image : List Byte) : List Byte := record image 3 16 0
def profileRec (image : List Byte) (i : Nat) : List Byte := record image 19 20 i
def flipperRec (image : List Byte) (i : Nat) : List Byte := record image 339 13 i
def switchRec (image : List Byte) (i : Nat) : List Byte := record image 391 5 i
def ruleRec (image : List Byte) (i : Nat) : List Byte := record image 511 4 i
def filterRec (image : List Byte) (i : Nat) : List Byte := record image 639 7 i
def actionRec (image : List Byte) (i : Nat) : List Byte := record image 751 7 i
def lampRec (image : List Byte) (i : Nat) : List Byte := record image 975 1 i

/-- Everything the image holds. -/
def readSettings (image : List Byte) : Settings where
  station := readStation (stationRec image)
  profiles := .ofFn fun i => readProfile (profileRec image i.val)
  flippers := .ofFn fun i => readFlipper (flipperRec image i.val)
  switches := .ofFn fun i => readSwitch (switchRec image i.val)
  rules := .ofFn fun i => readRule (ruleRec image i.val)
  filters := .ofFn fun i => readFilter (filterRec image i.val)
  actions := .ofFn fun i => readAction (actionRec image i.val)
  lamps := .ofFn fun i => readLamp (lampRec image i.val)

/-! ### The checks (R178, Table 12-1) -/

/-- `n` lies in `lo`–`hi`. -/
def within (lo hi n : Nat) : Bool := decide (lo ≤ n) && decide (n ≤ hi)

/-- A signed byte lies in −32 to +31. -/
def offsetOk (x : Int) : Bool := decide (-32 ≤ x) && decide (x ≤ 31)

/-- Station settings (Table 12-1). -/
def stationOk (r : List Byte) : Bool :=
  let st := readStation r
  within 100 20000 st.limL && decide (st.resF ≤ st.limL) && within 1 20000 st.soloS &&
    within 100 1023 st.vnom && decide (st.under ≤ 1003) && offsetOk st.offset &&
    within 1 8 st.scale && within 1 1000 st.skipGuard && within 1 16 st.resync

/-- A coil profile (Table 12-1). All four mode codes are assigned. -/
def profileOk (r : List Byte) : Bool :=
  let p := readProfile r
  offsetOk p.offset && within 1 4095 p.trip && decide (p.openThreshold ≤ 4095) &&
    match p.mode with
    | .unused => true
    | .flipper => decide (1 ≤ p.heatLimit)
    | _ =>
      decide (1 ≤ p.cls) && within 1 2000 p.base && within 1 15 p.duty && decide (1 ≤ p.maxHold) &&
        decide (p.cool ≤ 10000) && within 10 2550 p.res && decide (1 ≤ p.heatLimit) &&
        decide (2 * p.base + p.cool ≤ 10000)

/-- The outputs a flipper record in use names, by their bytes. -/
def flipperOuts (r : List Byte) : List Nat :=
  if bitOf (rByte r 0) 7 then rByte r 2 :: (if rByte r 3 = 255 then [] else [rByte r 3]) else []

/-- A flipper record (R72, Table 12-1). One not in use is not checked (log 16). -/
def flipperOk (image : List Byte) (r : List Byte) : Bool :=
  let f := readFlipper r
  !f.inUse ||
    ((flipperOuts r).all (fun n =>
        decide (n ≤ 15) && decide ((readProfile (profileRec image n)).mode = .flipper)) &&
      decide (bitsOf (rByte r 0) 4 0 ≤ 23) && (decide (rByte r 1 ≤ 23) || decide (rByte r 1 = 255)) &&
      decide (bitsOf (rByte r 0) 4 0 ≠ rByte r 1) &&
      within 1 1000 f.maxPower && within 1 f.maxPower f.minPower && within 1 f.maxPower f.softPower &&
      (f.hold.isSome || within 1 15 f.duty) && decide (1 ≤ f.holdLimit))

/-- The outputs named by the four flipper records. -/
def allFlipperOuts (image : List Byte) : List Nat :=
  [0, 1, 2, 3].flatMap fun i => flipperOuts (flipperRec image i)

/-- No output is named twice, and every FLIPPER output is named (R72). -/
def flippersOk (image : List Byte) : Bool :=
  let outs := allFlipperOuts image
  decide outs.Nodup && (List.range 4).all (fun i => flipperOk image (flipperRec image i)) &&
    (List.range 16).all fun n =>
      decide ((readProfile (profileRec image n)).mode ≠ .flipper) || outs.contains n

/-- A switch setting (Table 12-1). -/
def switchOk (r : List Byte) : Bool :=
  let st := readSwitch r
  decide (1 ≤ st.closeDebounce) && decide (1 ≤ st.openDebounce) &&
    (decide (rWord r 3 = 0) || decide (10 ≤ rWord r 3))

/-- The action of this index is in use. -/
def actionUsed (image : List Byte) (i : Nat) : Bool :=
  decide (i ≤ 31) && decide (rByte (actionRec image i) 0 ≠ 0)

/-- A switch rule (R108, Table 12-1). One not in use is not checked. -/
def ruleOk (image : List Byte) (r : List Byte) : Bool :=
  let a := bitOf (rByte r 0) 2
  let e := bitOf (rByte r 0) 3
  !bitOf (rByte r 0) 0 ||
    (decide (rByte r 1 ≤ 23) && (a || e) && (!e || within 1 6 (bitsOf (rByte r 0) 6 4)) &&
      (!a || actionUsed image (rByte r 2)))

/-- A filter (R165, Table 12-1). -/
def filterOk (image : List Byte) (r : List Byte) : Bool :=
  match rByte r 0 with
  | 0 => true
  | 1 => !bitOf (rByte r 1) 0 && !bitOf (rByte r 4) 0 && actionUsed image (rByte r 3) &&
      actionUsed image (rByte r 6)
  | 2 => actionUsed image (rByte r 3)
  | _ => false

/-- The output of an action is a CS output (R167). -/
def actionOut (image : List Byte) (r : List Byte) : Bool :=
  decide (rByte r 1 ≤ 15) && (readProfile (profileRec image (rByte r 1))).mode.isCS

/-- An action (R167, Table 12-1). -/
def actionOk (image : List Byte) (r : List Byte) : Bool :=
  match rByte r 0 with
  | 0 => true
  | 1 => actionOut image r
  | 2 => actionOut image r
  | 3 => actionOut image r
  | 4 => actionOut image r && (bitOf (rByte r 2) 0 || decide (1 ≤ rByte r 3)) &&
      within 10 10000 (rWord r 4) && decide (bitsOf (rByte r 2) 4 2 ≤ 4)
  | 5 => actionOut image r && decide (rByte r 2 ≤ 1)
  | 6 => decide (rByte r 1 ≤ 15) && decide (rByte r 2 ≤ 2) && decide (rByte r 3 ≤ 15)
  | n => decide (n ≤ 11)

/-- Check 4: every field and cross-check (Table 12-1). -/
def fieldsOk (image : List Byte) : Bool :=
  stationOk (stationRec image) &&
    (List.range 16).all (fun i => profileOk (profileRec image i)) && flippersOk image &&
    (List.range 24).all (fun i => switchOk (switchRec image i)) &&
    (List.range 32).all (fun i => ruleOk image (ruleRec image i)) &&
    (List.range 16).all (fun i => filterOk image (filterRec image i)) &&
    (List.range 32).all (fun i => actionOk image (actionRec image i))

/-- The sum of bytes 0–990 (R178). -/
def imageSum (image : List Byte) : Nat :=
  (image.take 991).foldl (fun n b => n + b.toNat) 0 % 65536

/-- The four checks in order; NONE where the image is accepted (R178). -/
def imageReason (image : List Byte) : Reason :=
  if rByte image 0 ≠ 1 then .format
  else if rWord image 1 ≠ 993 then .format
  else if imageSum image ≠ rWord image 991 then .sum
  else if fieldsOk image then .none
  else .field

end Sys2Proof.Machine
end

