-- ==== Sys2Proof/Machine/Ops.lean ====
section
/-!
DEFINITION. The named operations over the station's registers and tables that the families share:
reading and writing records, handing a frame to LC, the view and the budget test, the pending queue,
selection, the claim and its ends.
-/
namespace Sys2Proof.Machine

/-! ### Records -/

/-- This station's number (R177). -/
def State.own (s : State) : BitVec 6 := s.sl.number

/-- Channel of output n. -/
def State.ch (s : State) (n : Out) : Channel := s.cs.chan.get n

/-- Profile of output n. -/
def State.prof (s : State) (n : Out) : Profile := s.cfg.profiles.get n

/-- Replace the channel of output n. -/
def State.setCh (s : State) (n : Out) (c : Channel) : State :=
  { s with cs.chan := s.cs.chan.set n c }

/-- The channel of output n changed by `f`. -/
def State.updCh (s : State) (n : Out) (f : Channel → Channel) : State := s.setCh n (f (s.ch n))

/-- DB keeps a view and PC hands it the stop in these station states (R70, R175). -/
def State.viewing (s : State) : Bool :=
  s.sl.station = .joining ∨ s.sl.station = .run

/-- The budget mode is ISOLATED (R67, R70): computed from the link state. -/
def State.isolated (s : State) : Bool :=
  s.lc.state = .silent ∧ s.viewing

/-- CS counts a busy-drop (R25). -/
def State.busyDropped (s : State) : State :=
  { s with cs.busyDrop := bump s.cs.busyDrop }

/-! ### Handing a frame to LC (R148, R149) -/

/-- `f` replaces `g` where both are unstarted frames of this station (R148 steps 1 and 2): both
STANDING, or both STATUS of one page and part. A reply of length 1 names a page above 22 and no
part (R181). -/
def replaces (f g : Frame) : Bool :=
  f.kind = 4 ∧ g.kind = 4 ∨
    f.kind = 6 ∧ g.kind = 6 ∧ f.payload.head? = g.payload.head? ∧
      (f.payload.length = 1 ↔ g.payload.length = 1)

/-- The slot holds an unstarted frame that `f` replaces. -/
def slotReplaced (f : Frame) : Option Slot → Bool
  | some sl => !sl.onWire && replaces f sl.frame
  | none => false

/-- The payload of the first frame that `f` replaces becomes that of `f`. -/
def replaceFirst (f : Frame) : List Frame → List Frame
  | [] => []
  | g :: rest =>
    if replaces f g then { g with payload := f.payload } :: rest else g :: replaceFirst f rest

/-- A frame that `f` replaces is held unstarted in slot 2, slot 3 or the outgoing queue. -/
def Link.holdsUnstarted (lc : Link) (f : Frame) : Bool :=
  slotReplaced f (lc.slots.get 2) || slotReplaced f (lc.slots.get 3) || lc.outq.any (replaces f)

/-- Place a frame in an empty slot, WAITING, with acknowledge-failure count 0 (R147). -/
def Link.place (lc : Link) (i : Fin 4) (f : Frame) : Link :=
  { lc with slots := lc.slots.set i (some ⟨f, false, 0⟩) }

/-- Empty a slot. -/
def Link.empty (lc : Link) (i : Fin 4) : Link :=
  { lc with slots := lc.slots.set i none }

/-- Give the frame in slot i the payload of `f`; its place, condition and count are kept (R148). -/
def Link.replaceSlot (lc : Link) (i : Fin 4) (f : Frame) : Link :=
  match lc.slots.get i with
  | some sl => { lc with slots := lc.slots.set i (some { sl with frame.payload := f.payload }) }
  | none => lc

/-- LC takes a frame for slots 2 and 3, or refuses it while SILENT (R148). -/
def Link.hand (lc : Link) (f : Frame) : Link :=
  if lc.state = .silent then lc
  else if slotReplaced f (lc.slots.get 2) then lc.replaceSlot 2 f
  else if slotReplaced f (lc.slots.get 3) then lc.replaceSlot 3 f
  else if lc.outq.any (replaces f) then { lc with outq := replaceFirst f lc.outq }
  else if lc.slots.get 2 = none then lc.place 2 f
  else if lc.slots.get 3 = none then lc.place 3 f
  else if lc.outq.length < Config.outQueueSize then { lc with outq := lc.outq ++ [f] }
  else { lc with txDrop := bump lc.txDrop }

/-- A block hands LC a frame. -/
def State.hand (s : State) (f : Frame) : State := { s with lc := s.lc.hand f }

/-- LC drops a frame handed to it, for a full outgoing queue (R148 step 6). -/
def Link.drops (lc : Link) (f : Frame) : Bool :=
  lc.state ≠ .silent ∧ lc.holdsUnstarted f = false ∧ lc.slots.get 2 ≠ none ∧
    lc.slots.get 3 ≠ none ∧ Config.outQueueSize ≤ lc.outq.length

/-- The head of the outgoing queue moves into slot i if that is empty (R149). -/
def Link.fill (lc : Link) (i : Fin 4) : Link :=
  match lc.slots.get i, lc.outq with
  | none, f :: rest => { lc.place i f with outq := rest }
  | _, _ => lc

/-- Both shared slots filled from the queue, slot 2 first (R149). -/
def Link.refill (lc : Link) : Link := (lc.fill 2).fill 3

/-- A frame of slot 2 or 3 returns to WAITING, or is discarded for a newer one of its kind held
unstarted (R148, R150, R152, R153); `fails` is its acknowledge-failure count after the end. -/
def Link.returnShared (lc : Link) (i : Fin 4) (sl : Slot) (fails : Nat) : Link :=
  if (lc.empty i).holdsUnstarted sl.frame then (lc.empty i).refill
  else { lc with slots := lc.slots.set i (some { sl with onWire := false, ackFails := fails }) }

/-- The slot whose frame is ON WIRE. -/
def Link.onWireSlot (lc : Link) : Option (Fin 4) :=
  firstFin 4 fun i => match lc.slots.get i with
    | some sl => sl.onWire
    | none => false

/-! ### The view (R46–R53) -/

/-- The sum of all draw-table draws and all present standing draws, saturating (R52). -/
def Budget.viewTotal (db : Budget) : Nat :=
  min 65535 ((db.table.map (·.draw)).sum +
    (db.standing.items.map fun r => if r.present then r.draw else 0).sum)

/-- The ceiling in force for a class (R54). -/
def State.ceiling (s : State) (cls : Nat) : Nat :=
  let st := s.cfg.station
  let room := st.limL - st.resF
  if s.isolated then st.soloS
  else if cls = 1 then room
  else if cls = 2 then room * 3 / 4
  else room / 2

/-- The budget test (R55). -/
def budgetTest (total d ceiling : Nat) : Bool :=
  total + d ≤ ceiling ∨ ceiling < d ∧ total = 0

/-- Ticks an entry has still to run at `now`. -/
def DrawEntry.left (now : Tick) (e : DrawEntry) : Nat :=
  if reached now e.expiry then 0 else (e.expiry - now).toNat

/-- `a` goes before `b` as the entry to merge into (R48): latest expiry, then lowest source, lowest
output, not withdrawn, smallest draw. -/
def DrawEntry.before (now : Tick) (a b : DrawEntry) : Bool :=
  let key (e : DrawEntry) : List Nat :=
    [e.source.toNat, e.output.val, if e.withdrawn then 1 else 0, e.draw]
  b.left now < a.left now ∨ a.left now = b.left now ∧ key a < key b

/-- The entry to merge into (R48). -/
def mergeChoice (now : Tick) : DrawEntry → List DrawEntry → DrawEntry
  | best, [] => best
  | best, e :: rest => mergeChoice now (if e.before now best then e else best) rest

/-- The chosen entry after the merge (R48). -/
def DrawEntry.merge (now : Tick) (e new : DrawEntry) : DrawEntry :=
  { e with
    draw := satAdd 4095 e.draw new.draw
    expiry := if e.left now < new.left now then new.expiry else e.expiry
    withdrawn := e.withdrawn && new.withdrawn }

/-- The first entry equal to `old` replaced. -/
def replaceEntry (old new : DrawEntry) : List DrawEntry → List DrawEntry
  | [] => []
  | e :: rest => if e = old then new :: rest else e :: replaceEntry old new rest

/-- Add a claim entry, merging where the table already holds 24 (R46, R48). -/
def addEntry (now : Tick) (new : DrawEntry) (table : List DrawEntry) : List DrawEntry :=
  if table.length < Config.drawTableSize then table ++ [new]
  else match table with
    | [] => [new]
    | e :: rest =>
      let chosen := mergeChoice now e rest
      replaceEntry chosen (chosen.merge now new) table

/-- The record of a station number 0–62 (R49). -/
def standingIdx (n : BitVec 6) : Option (Fin 63) :=
  if h : n.toNat < 63 then some ⟨n.toNat, h⟩ else none

/-- The own standing draw (R64). -/
def State.ownDraw (s : State) : Nat :=
  match standingIdx s.own with
  | some i => (s.db.standing.get i).draw
  | none => 0

/-- Write the own standing draw into the own record (R64). -/
def State.setOwnDraw (s : State) (d : Nat) : State :=
  match standingIdx s.own with
  | some i =>
    { s with db.standing := s.db.standing.set i { s.db.standing.get i with draw := d } }
  | none => s

/-- The sum of the hold draws of the CS outputs in HOLD, clamped (R64). -/
def State.holdSum (s : State) : Nat :=
  min 4095 ((List.finRange 16).map fun n =>
    if (s.ch n).state = .hold ∧ (s.prof n).mode.isCS then (s.ch n).holdDraw else 0).sum

/-- DB hands LC a STANDING frame of the figure then standing and restarts the refresh timer, while
in RUN and NORMAL (R65). -/
def announceStanding (s : State) : State :=
  if s.sl.station = .run ∧ s.isolated = false then
    { s.hand (standingFrame s.own s.ownDraw) with
      db.refresh := some (after s.tick Config.refreshTicks) }
  else s

/-! ### The pending queue (R9–R14) -/

/-- A new entry is placed after its own class and the lower class numbers (R9). -/
def insertEntry (e : Entry) : List Entry → List Entry
  | [] => [e]
  | x :: rest => if e.cls < x.cls then e :: x :: rest else x :: insertEntry e rest

/-- A new entry joins the queue. -/
def State.join (s : State) (e : Entry) : State :=
  { s with cs.queue := insertEntry e s.cs.queue }

/-- The queue without the entry of output n. -/
def State.removeEntry (s : State) (n : Out) : State :=
  { s with cs.queue := s.cs.queue.filter (·.output ≠ n) }

/-- Change the entry of output n. -/
def State.updEntry (s : State) (n : Out) (f : Entry → Entry) : State :=
  { s with cs.queue := s.cs.queue.map fun e => if e.output = n then f e else e }

/-- The size a train offers at a burst's selection (R91 step 1). -/
def Train.offered (tr : Train) : Nat :=
  if tr.free then tr.size else min tr.size tr.remaining

/-- The train of a BURST entry. -/
def State.entryTrain (s : State) (e : Entry) : Option Train :=
  if e.burst then (s.ch e.output).train else none

/-- k′ of the entry's kind as it stands (R91); 1 for SINGLE. -/
def State.entryK (s : State) (e : Entry) : Nat :=
  match s.entryTrain e with
  | some tr => tr.offered
  | none => 1

/-- The power time of the entry from the present supply reading (R40, R41). -/
def State.entryT (s : State) (e : Entry) : Nat :=
  stretch (e.override.getD (s.prof e.output).base) s.cfg.station.vnom s.sc.supply

/-- The draw of the entry from the present supply reading (R38). -/
def State.entryDraw (s : State) (e : Entry) : Nat :=
  drawOf (s.prof e.output).res s.cfg.station.vnom s.sc.supply

/-- The class is enabled and the station is not stopped (R10, Table 11-2). -/
def State.open_ (s : State) (cls : Nat) : Bool :=
  !s.pc.stopped && !classDisabled s.pc.state cls

/-- An entry is eligible for selection (R10). -/
def State.eligible (s : State) (e : Entry) : Bool :=
  s.open_ e.cls && decide (s.sc.supplyState = .normal) && !e.waits && !e.inFlight &&
    heatTest (s.ch e.output).heat (s.prof e.output).heatLimit (s.entryK e) (s.entryT e) &&
    budgetTest s.db.viewTotal (s.entryDraw e) (s.ceiling e.cls)

/-- The entries not blocked by a guard-passed entry: all up to the first of those (R11). -/
def unblocked : List Entry → List Entry
  | [] => []
  | e :: rest => if e.guard then [e] else e :: unblocked rest

/-- The figures and the claim duration fixed at the selection of an entry (R56, R42, R91). -/
def State.claimOf (s : State) (e : Entry) : Claim :=
  let p := s.prof e.output
  let t := s.entryT e
  match s.entryTrain e with
  | some tr =>
    let period := max tr.period (t + p.cool)
    let k := fitHeat (fitDuration tr.offered period t) t p.heatLimit
    ⟨e.output, e.cls, s.entryDraw e, t, some (k, period), burstDuration k period t, false⟩
  | none => ⟨e.output, e.cls, s.entryDraw e, t, none, t, false⟩

/-! ### POWER, grant and deny (R13, R15, R21, R58, R92, R93) -/

/-- A POWER phase of t ticks starts at tick `at_`: gate, heat and the scheduled open check (R15,
R21, R43, R93). -/
def Channel.powerOn (c : Channel) (at_ : Tick) (t : Nat) : Channel :=
  { c with
    state := .power
    phaseEnd := after at_ t
    powerStart := at_
    heat := satAdd 65535 c.heat t
    checkDue := some (if t ≤ 2 then at_ else after at_ (t - 2)) }

/-- A pulse of the train starts: pulses started and the fired count (R93). -/
def Train.pulse (tr : Train) : Train :=
  { tr with
    burst := tr.burst.map fun b => { b with started := b.started + 1 }
    fired := if tr.fired < 65535 then tr.fired + 1 else if tr.free then 0 else 65535
    wrap := tr.wrap || (tr.free && decide (65535 ≤ tr.fired)) }

/-- A granted burst (R92): remaining lowered, burst figures set, first pulse started. -/
def Train.granted (tr : Train) (at_ : Tick) (k period t : Nat) : Train :=
  Train.pulse { tr with
    remaining := if tr.free then tr.remaining else tr.remaining - k
    burst := some ⟨k, period, t, 0, at_⟩ }

/-- The channel at the grant of a claim at tick `at_` (R15, R92). -/
def Channel.granted (ch : Channel) (c : Claim) (at_ : Tick) : Channel :=
  { ch.powerOn at_ c.t with
    t := c.t
    draw := c.draw
    train := match c.burst with
      | some (k, period) => ch.train.map (·.granted at_ k period c.t)
      | none => ch.train }

/-- The grant of a claim at tick `at_` (R15, R92). -/
def grant (s : State) (c : Claim) (at_ : Tick) : State :=
  (s.removeEntry c.output).updCh c.output (·.granted c at_)

/-- An entry parked by a deny (R13). -/
def Entry.parked (e : Entry) : Entry := { e with inFlight := false, waits := true }

/-- An entry selectable again (R13). -/
def Entry.returned (e : Entry) : Entry := { e with inFlight := false }

/-- An entry whose claim is in flight (R12). -/
def Entry.claimed (e : Entry) : Entry := { e with inFlight := true }

/-- The deny counter (R58). -/
def State.denied (s : State) : State := { s with db.deny := bump s.db.deny }

/-- A deny parks the entry and is counted (R13, R58). -/
def deny (s : State) (n : Out) : State := (s.updEntry n Entry.parked).denied

/-- An entry returned as selectable, with no deny (R13, R62, R67). -/
def returnEntry (s : State) (n : Out) : State := s.updEntry n Entry.returned

/-- This station's entry for a claim decided with a pass at tick `at_` (R58, R63). -/
def State.ownEntry (s : State) (c : Claim) (at_ : Tick) : DrawEntry :=
  ⟨s.own, c.output, c.draw, after at_ c.duration, c.withdrawn⟩

/-- An entry added to the draw table (R46). -/
def State.addDraw (s : State) (new : DrawEntry) : State :=
  { s with db.table := addEntry s.tick new s.db.table }

/-- Add this station's entry for a claim decided with a pass at tick `at_` (R58, R63, R68). -/
def addOwnEntry (s : State) (c : Claim) (at_ : Tick) : State := s.addDraw (s.ownEntry c at_)

/-- The claim in flight is clear. -/
def State.noClaim (s : State) : State := { s with db.claim := none }

/-- The budget test of a claim against the view as it stands (R55, R58). -/
def State.passes (s : State) (c : Claim) : Bool :=
  budgetTest s.db.viewTotal c.draw (s.ceiling c.cls)

/-- The decision on a claim at tick `at_` (R58; R63 for a withdrawn one; R68 in ISOLATED). -/
def decide_ (s : State) (c : Claim) (at_ : Tick) : State :=
  if s.passes c then
    if c.withdrawn then addOwnEntry s c at_ else grant (addOwnEntry s c at_) c at_
  else if c.withdrawn then s else deny s c.output

/-- The decision on the claim in flight, which is then clear (R58, R61, R63). -/
def decideClaim (s : State) (at_ : Tick) : State :=
  match s.db.claim with
  | some c => decide_ s.noClaim c at_
  | none => s

/-! ### Selection (R12, R56, R68) -/

/-- The pulse figures fixed at a selection (R12). -/
def Channel.figures (ch : Channel) (t draw : Nat) : Channel := { ch with t := t, draw := draw }

/-- A claim is made for an entry in NORMAL mode: claim in flight recorded, CLAIM frame in slot 0
(R12, R56). -/
def placeClaim (s : State) (e : Entry) : State :=
  let c := s.claimOf e
  { (s.updEntry e.output Entry.claimed).updCh e.output (·.figures c.t c.draw) with
    db.claim := some c
    lc := s.lc.place 0 (claimFrame s.own c.cls c.output c.draw c.duration) }

/-- Selection, as often as ISOLATED mode lets one follow the other at once (R12, R68). -/
def selectLoop : Nat → State → State
  | 0, s => s
  | fuel + 1, s =>
    if s.db.claim.isSome then s
    else match (unblocked s.cs.queue).find? s.eligible with
      | none => s
      | some e =>
        if s.isolated then selectLoop fuel (decide_ s (s.claimOf e) s.tick)
        else placeClaim s e

/-- Selection (R12). A local decision takes its entry out of the queue or parks it, so one round for
each entry is enough. -/
def select (s : State) : State := selectLoop (s.cs.queue.length + 1) s

/-- Every waits-for-decrease flag cleared (R53). -/
def State.unpark (s : State) : State :=
  { s with cs.queue := s.cs.queue.map fun e => { e with waits := false } }

/-- A view decrease: every waits-for-decrease flag cleared, then a selection (R53). -/
def viewDecrease (s : State) : State := select s.unpark

/-- DB computes the own standing draw again after an output entered or left HOLD (R64): a change is
announced, a fall is a view decrease. -/
def updateStanding (s : State) : State :=
  if s.holdSum = s.ownDraw then s
  else if s.holdSum < s.ownDraw then viewDecrease (announceStanding (s.setOwnDraw s.holdSum))
  else announceStanding (s.setOwnDraw s.holdSum)

/-- CS hands DB a withdrawal if the claim in flight is for output n (R63): an unstarted frame is
emptied from slot 0, one ON WIRE runs on. -/
def withdrawClaim (s : State) (n : Out) : State :=
  match s.db.claim with
  | some c =>
    if c.output = n then
      match s.lc.slots.get 0 with
      | some sl =>
        if sl.onWire then { s with db.claim := some { c with withdrawn := true } }
        else { s.noClaim with lc := s.lc.empty 0 }
      | none => s.noClaim
    else s
  | none => s

/-- The entry of output n leaves the queue without a grant (R9, R13). -/
def dequeue (s : State) (n : Out) : State := withdrawClaim (s.removeEntry n) n

/-- The channel in another state. -/
def Channel.to (ch : Channel) (st : ChanState) : Channel := { ch with state := st }

/-- The output joins the queue with a new entry, and a selection follows (R6, R9, R12, R90). -/
def enqueue (s : State) (n : Out) (burst : Bool) (override : Option Nat) : State :=
  select ((s.updCh n (·.to .queued)).join
    ⟨n, (s.prof n).cls, s.tick, burst, false, false, false, override⟩)

end Sys2Proof.Machine
end

