-- ==== Sys2Proof/Machine/Coils.lean ====
section
/-!
DEFINITION. The coil sequencer: requests on an output, the ends of its phases, trains, faults and
CLEAR (Chapters 1 and 5).
-/
namespace Sys2Proof.Machine

/-! ### Channel records -/

/-- A channel in COOL until a tick (R19). -/
def Channel.cooling (c : Channel) (phaseEnd : Tick) : Channel :=
  { c with state := .cool, holdDraw := 0, checkDue := none, phaseEnd := phaseEnd }

/-- A channel in OFF. -/
def Channel.off (c : Channel) : Channel :=
  { c with state := .off, checkDue := none, holdDraw := 0 }

/-- A channel in HOLD from `now` (R17). -/
def Channel.holding (c : Channel) (now phaseEnd : Tick) (holdDraw : Nat) : Channel :=
  { c with
    state := .hold, holdStart := now, holdDraw := holdDraw, checkDue := none, phaseEnd := phaseEnd }

/-- A channel in FAULT (R23). -/
def Channel.faulted (c : Channel) (kind : FaultKind) : Channel :=
  { c with
    state := .fault, faultKind := kind, repeats := 0, holdWanted := false, train := none
    checkDue := none, holdDraw := 0 }

/-- Hold-wanted set or cleared (R7). -/
def Channel.want (c : Channel) (b : Bool) : Channel := { c with holdWanted := b }

/-- A train record set or discarded. -/
def Channel.withTrain (c : Channel) (tr : Option Train) : Channel := { c with train := tr }

/-- The repeat count set. -/
def Channel.owing (c : Channel) (k : Nat) : Channel := { c with repeats := k }

/-- Repeat count 0, hold-wanted clear, train discarded (R14, R173). -/
def Channel.dropWork (c : Channel) : Channel :=
  { c with repeats := 0, holdWanted := false, train := none }

/-! ### COOL and HOLD -/

/-- The output goes to COOL, its phase end set from the cool time (R19). -/
def toCool (s : State) (n : Out) : State :=
  s.updCh n (·.cooling (after s.tick (s.prof n).cool))

/-- The output goes to OFF. -/
def toOff (s : State) (n : Out) : State := s.updCh n Channel.off

/-- A train ends gracefully: record discarded, output OFF, done report handed (R99). -/
def endTrain (s : State) (n : Out) : State :=
  match (s.ch n).train with
  | none => s
  | some tr => match tr.done with
    | some code => (toOff (s.updCh n (·.withTrain none)) n).hand
        (eventFrame s.own (BitVec.ofNat 3 (s.prof n).cls) 255 true code)
    | none => toOff (s.updCh n (·.withTrain none)) n

/-- The cool time of an output without a train runs out (R19). -/
def coolOver (s : State) (n : Out) : State :=
  if 0 < (s.ch n).repeats then enqueue (s.updCh n (·.owing ((s.ch n).repeats - 1))) n false none
  else toOff (s.updCh n (·.want false)) n

/-- The cool time after a burst runs out, with the train record still present (R94). -/
def burstCoolOver (s : State) (n : Out) (tr : Train) : State :=
  if tr.stopRequested ∨ (tr.free = false ∧ tr.remaining = 0) then endTrain s n
  else enqueue (s.updCh n (·.withTrain (some { tr with burst := none }))) n true none

/-- With a cool time of 0, COOL ends at the instant it is entered (R19). -/
def coolIfZero (s : State) (n : Out) : State :=
  if (s.prof n).cool = 0 ∧ (s.ch n).state = .cool then
    match (s.ch n).train with
    | none => coolOver s n
    | some tr => burstCoolOver s n tr
  else s

/-- The output leaves POWER or GAP for COOL (R16, R93, R97, R98). -/
def coolFrom (s : State) (n : Out) : State := coolIfZero (toCool s n) n

/-- The output leaves HOLD for COOL: hold draw taken from the own standing draw (R18). With a cool time
of 0 the selection of the fallen draw (R53, R64) comes before the output is queued again (R19). DESIGN
CHOICE (log 41). -/
def leaveHold (s : State) (n : Out) : State :=
  coolIfZero (updateStanding (toCool s n)) n

/-- The output enters HOLD (R17). -/
def enterHold (s : State) (n : Out) : State :=
  updateStanding (s.updCh n (·.holding s.tick (after s.tick (ms (s.prof n).maxHold))
    (holdDrawOf (s.ch n).draw (s.prof n).duty)))

/-! ### Faults (R20, R23, R24) -/

/-- An output enters FAULT (R23). A HOLD left so takes its hold draw away (R20). The FAULT NOTICE is
handed before the STANDING frame of the fallen draw, of which R148 lets either be first. DESIGN CHOICE
(log 33). -/
def toFault (s : State) (n : Out) (kind : FaultKind) : State :=
  updateStanding ((dequeue (s.updCh n (·.faulted kind)) n).hand (faultFrame s.own n kind))

/-! ### Requests (R4, R6–R8, R89, R90, R96–R98) -/

/-- FIRE by the output's state (R6, R7, R8, R96). -/
def fireRequest (s : State) (n : Out) (override : Option Nat) : State :=
  let c := s.ch n
  match c.state with
  | .off => enqueue s n false override
  | .fault => s.busyDropped
  | .flipper => s
  | _ =>
    if c.train.isSome then s.busyDropped
    else if c.repeats < (s.prof n).depth then s.updCh n (·.owing (c.repeats + 1))
    else (s.updCh n fun c => { c with overflow := true }).busyDropped

/-- A HOLD taken after the end of POWER at the same instant finds the output in COOL, or in OFF where the
cool time is 0, and leads to HOLD as one taken before it does (R16, log 44). -/
def holdAfterPower (s : State) (n : Out) : State := enterHold (s.updCh n (·.want true)) n

/-- HOLD by the output's state (R6, R7, R8, R16, R17, R96). -/
def holdRequest (s : State) (n : Out) : State :=
  let c := s.ch n
  match c.state with
  | .off =>
    if n ∈ s.powerEnded then holdAfterPower s n
    else enqueue (s.updCh n (·.want true)) n false none
  | .fault => s.busyDropped
  | .flipper => s
  | .hold =>
    s.updCh n fun c =>
      { c with holdWanted := true, phaseEnd := after s.tick (ms (s.prof n).maxHold) }
  | .cool =>
    if c.train.isSome then s.busyDropped
    else if n ∈ s.powerEnded then holdAfterPower s n
    else s.updCh n (·.want true)
  | _ =>
    if c.train.isSome then s.busyDropped
    else s.updCh n (·.want true)

/-- RELEASE by the output's state (R6, R7, R8, R18, R96). -/
def releaseRequest (s : State) (n : Out) : State :=
  match (s.ch n).state with
  | .off => s
  | .fault => s.busyDropped
  | .flipper => s
  | .hold => leaveHold (s.updCh n (·.want false)) n
  | _ => s.updCh n (·.want false)

/-- A new train record (R90). -/
def Train.start (req : TrainReq) (defaultSize : Nat) : Train :=
  ⟨req.free, if req.free then 0 else req.n, req.period, req.burst.getD defaultSize, req.done,
    false, 0, false, none⟩

/-- A TRAIN on an output with a train record (R96). -/
def trainAddition (s : State) (n : Out) (tr : Train) (req : TrainReq) : State :=
  if req.free ∨ tr.free ∨ tr.stopRequested then s.busyDropped
  else
    let t := s.updCh n (·.withTrain (some { tr with remaining := satAdd 255 tr.remaining req.n }))
    if 255 < tr.remaining + req.n then t.busyDropped else t

/-- TRAIN by the output's state (R8, R89, R90, R96). -/
def trainRequest (s : State) (n : Out) (req : TrainReq) : State :=
  let c := s.ch n
  match c.state with
  | .off =>
    enqueue (s.updCh n (·.withTrain (some (Train.start req (s.prof n).burst)))) n true none
  | .fault => s.busyDropped
  | .flipper => s
  | _ =>
    match c.train with
    | some tr => trainAddition s n tr req
    | none => s.busyDropped

/-- A graceful TRAIN STOP on an output with a train record (R97). -/
def gracefulStop (s : State) (n : Out) (tr : Train) : State :=
  let t := s.updCh n (·.withTrain (some { tr with stopRequested := true }))
  match (s.ch n).state with
  | .queued => select (endTrain (dequeue t n) n)
  | .gap => coolFrom t n
  | _ => t

/-- A cancelling TRAIN STOP on an output with a train record (R98). -/
def cancelTrain (s : State) (n : Out) : State :=
  let t := s.updCh n (·.withTrain none)
  match (s.ch n).state with
  | .queued => select (toOff (dequeue t n) n)
  | .power => coolFrom t n
  | .gap => coolFrom t n
  | _ => t

/-- TRAIN STOP by the output's state (R8, 5.4). -/
def trainStopRequest (s : State) (n : Out) (cancel : Bool) : State :=
  let c := s.ch n
  match c.state with
  | .fault => s.busyDropped
  | _ =>
    match c.train with
    | some tr => if cancel then cancelTrain s n else gracefulStop s n tr
    | none => s

/-- A coil request that passed the tests of R4. -/
def takeRequest (s : State) (n : Out) : Request → State
  | .fire override => fireRequest s n override
  | .hold => holdRequest s n
  | .release => releaseRequest s n
  | .train req => trainRequest s n req
  | .trainStop cancel => trainStopRequest s n cancel

/-- A coil request reaches CS (R4): taken in RUN, for a CS output (R3); dropped with the tilt-drop
counter raised while stopped or while its class is disabled. -/
def coilRequest (s : State) (n : Out) (r : Request) : State :=
  if s.sl.station = .run ∧ (s.prof n).mode.isCS then
    if s.open_ (s.prof n).cls then takeRequest s n r
    else { s with pc.tiltDrop := bump s.pc.tiltDrop }
  else s

/-! ### The pending queue's own events -/

/-- The entry of output n. -/
def State.entryOf (s : State) (n : Out) : Option Entry :=
  s.cs.queue.find? (·.output = n)

/-- An entry's age first exceeds ten times the skip guard (R11). -/
def State.guardDue (s : State) (e : Entry) : Bool :=
  !e.guard && decide (ms s.cfg.station.skipGuard < age s.tick e.arrival)

/-- An entry's age reaches ten times its wait limit (R14). -/
def State.waitDue (s : State) (e : Entry) : Bool :=
  match (s.prof e.output).waitLimit with
  | some w => ms w ≤ age s.tick e.arrival
  | none => false

/-- An entry past its skip guard (R11). -/
def Entry.passGuard (e : Entry) : Entry := { e with guard := true }

/-- GUARD_PASSED (R11). -/
def execGuardPassed (n : Out) (s : State) : Host.Outcome State Fault Refusal :=
  match s.entryOf n with
  | some e =>
    if s.guardDue e then .next (s.updEntry n Entry.passGuard) else .next s
  | none => .next s

/-- CS counts a wait-drop (R25). -/
def State.waitDropped (s : State) : State := { s with cs.waitDrop := bump s.cs.waitDrop }

/-- An entry is dropped at its wait limit (R14). -/
def waitDrop (s : State) (n : Out) : State :=
  select (toOff ((dequeue s n).updCh n Channel.dropWork) n).waitDropped

/-- WAIT_LIMIT_EXPIRY (R14). -/
def execWaitLimitExpiry (n : Out) (s : State) : Host.Outcome State Fault Refusal :=
  match s.entryOf n with
  | some e => if s.waitDue e then .next (waitDrop s n) else .next s
  | none => .next s

/-! ### The ends of phases -/

/-- The phase of output n has reached its end in state `st`. -/
def State.phaseOver (s : State) (n : Out) (st : ChanState) : Bool :=
  decide ((s.ch n).state = st) && reached s.tick (s.ch n).phaseEnd

/-- POWER of a single pulse has run out at this instant, on a PULSE_HOLD output: a HOLD that comes
together with it still leads to HOLD (R16, log 44). -/
def State.notePowerEnd (s : State) (n : Out) : State :=
  if (s.prof n).mode = .pulseHold then { s with powerEnded := n :: s.powerEnded } else s

/-- POWER_END (R16). -/
def execPowerEnd (n : Out) (s : State) : Host.Outcome State Fault Refusal :=
  let c := s.ch n
  if s.phaseOver n .power ∧ c.train = none then
    if c.openCount = 3 then .next (toFault s n .open)
    else
      let t := s.notePowerEnd n
      if (s.prof n).mode = .pulseHold ∧ c.holdWanted then .next (enterHold t n)
      else .next (coolFrom t n)
  else .next s

/-- MAX_HOLD_EXPIRY (R18). -/
def execMaxHoldExpiry (n : Out) (s : State) : Host.Outcome State Fault Refusal :=
  if s.phaseOver n .hold then
    .next (leaveHold (s.updCh n fun c =>
      { c with holdWanted := false, holdTimeouts := satAdd 255 c.holdTimeouts 1 }) n)
  else .next s

/-- COOL_END (R19). -/
def execCoolEnd (n : Out) (s : State) : Host.Outcome State Fault Refusal :=
  if s.phaseOver n .cool ∧ (s.ch n).train = none then .next (coolOver s n) else .next s

/-- TRAIN_PULSE_END (R93). -/
def execTrainPulseEnd (n : Out) (s : State) : Host.Outcome State Fault Refusal :=
  let c := s.ch n
  match c.train with
  | none => .next s
  | some tr =>
    if s.phaseOver n .power then
      if c.openCount = 3 then .next (toFault s n .open)
      else match tr.burst with
        | some b =>
          if b.started < b.kPrime ∧ tr.stopRequested = false then
            .next (s.updCh n fun c => { c with state := .gap, checkDue := none })
          else .next (coolFrom s n)
        | none => .next (coolFrom s n)
    else .next s

/-- The tick the next pulse of a burst starts at (R93). -/
def Burst.nextStart (b : Burst) : Tick := after b.grantAt (b.started * b.period)

/-- BURST_PULSE_START (R93). -/
def execBurstPulseStart (n : Out) (s : State) : Host.Outcome State Fault Refusal :=
  let c := s.ch n
  match c.train with
  | none => .next s
  | some tr =>
    match tr.burst with
    | none => .next s
    | some b =>
      if c.state = .gap ∧ reached s.tick b.nextStart then
        .next (s.updCh n fun c => (c.powerOn s.tick b.t).withTrain (some tr.pulse))
      else .next s

/-- BURST_COOL_END (R94). -/
def execBurstCoolEnd (n : Out) (s : State) : Host.Outcome State Fault Refusal :=
  match (s.ch n).train with
  | none => .next s
  | some tr => if s.phaseOver n .cool then .next (burstCoolOver s n tr) else .next s

/-! ### Trips and CLEAR -/

/-- FAST_TRIP (R20, R36): armed in POWER, HOLD and GAP. -/
def execFastTrip (n : Out) (current : Nat) (s : State) : Host.Outcome State Fault Refusal :=
  let c := s.ch n
  if (s.prof n).mode.isCS ∧ (c.state = .power ∨ c.state = .hold ∨ c.state = .gap) ∧
      (s.prof n).trip < current then
    .next (toFault s n .short)
  else .next s

/-- A flipper in use drives the output. -/
def FlipSettings.drives (f : FlipSettings) (n : Out) : Bool :=
  f.inUse && (decide (f.power = n) || decide (f.hold = some n))

/-- The flipper record that drives an output. -/
def Settings.flipperOf (cfg : Settings) (n : Out) : Option Flip :=
  firstFin 4 fun f => (cfg.flippers.get f).drives n

/-- None of a flipper's outputs is in FAULT. -/
def State.flipperSound (s : State) (f : Flip) : Bool :=
  (List.finRange 16).all fun n =>
    !(s.cfg.flippers.get f).drives n || decide ((s.ch n).state ≠ .fault)

/-- A channel cleared of its fault (R24). -/
def Channel.cleared (c : Channel) (st : ChanState) : Channel :=
  { c with state := st, faultKind := .none, openCount := 0 }

/-- CLEAR of an output (R24, R85). -/
def clearOutput (s : State) (n : Out) : State :=
  if (s.ch n).state = .fault then
    if (s.prof n).mode = .flipper then
      let t := s.updCh n (·.cleared .flipper)
      match s.cfg.flipperOf n with
      | some f =>
        if t.flipperSound f then
          { t with fl := s.fl.set f { s.fl.get f with disabled := false } }
        else t
      | none => t
    else s.updCh n (·.cleared .off)
  else s

end Sys2Proof.Machine
end

