-- ==== Sys2Proof/Machine/Flippers.lean ====
section
/-!
DEFINITION. The flipper controller (Chapter 4).
-/
namespace Sys2Proof.Machine

/-- The level FL sees (R73). -/
def SwState.level : SwState → Bool
  | .open => false
  | .closing => false
  | .closed => true
  | .opening => true
  | .stuck => true

/-- The level of a switch at this instant (R73). -/
def State.switchClosed (s : State) (sw : Sw) : Bool := (s.sw.sw.get sw).state.level

/-- Replace a flipper record. -/
def State.setFlip (s : State) (f : Flip) (r : Flipper) : State := { s with fl := s.fl.set f r }

/-- A POWER start on a flipper's power output adds its whole time to the heat (R43). -/
def State.heatUp (s : State) (n : Out) (t : Nat) : State :=
  s.updCh n fun c => { c with heat := satAdd 65535 c.heat t }

/-- The flipper goes to REST (R82); one in REST is not changed. -/
def Flipper.rest (r : Flipper) : Flipper :=
  if r.state = .rest then r
  else { r with state := .rest, repowers := 0, reduced := false, limitEnd := none }

/-- Every flipper goes to REST (R83). -/
def restFlippers (s : State) : State := { s with fl := s.fl.mapIdx fun _ r => r.rest }

/-! ### The press (R75, R76) -/

/-- The EOS check at a press (R76); `eos` is the EOS level, none without an EOS switch. -/
def Flipper.eosCheck (r : Flipper) (eos : Option Bool) : Flipper :=
  match eos with
  | none => { r with timed := true }
  | some closed =>
    if r.faulty then { r with timed := true }
    else if closed then
      { r with
        timed := true
        closedCount := satAdd 3 r.closedCount 1
        faulty := decide (3 ≤ r.closedCount + 1) }
    else { r with timed := false, closedCount := 0 }

/-- The EOS level of a flipper at this instant, none without an EOS switch. -/
def State.eosLevel (s : State) (f : Flip) : Option Bool :=
  (s.cfg.flippers.get f).eos.map s.switchClosed

/-- The power time of a press (R45, R75). -/
def State.pressTime (s : State) (f : Flip) : Nat :=
  let st := s.cfg.flippers.get f
  let hot := (s.prof st.power).heatLimit ≤ (s.ch st.power).heat
  stretch (if hot then st.softPower else st.maxPower) s.cfg.station.vnom s.sc.supply

/-- FL takes a button close as a press (R75). -/
def State.canPress (s : State) (f : Flip) : Bool :=
  decide (s.sl.station = .run) && decide (s.pc.state = .play) && !s.pc.stopped &&
    !(s.fl.get f).disabled && decide ((s.fl.get f).state = .rest)

/-- A press (R75). -/
def press (s : State) (f : Flip) : State :=
  let st := s.cfg.flippers.get f
  let t := s.pressTime f
  let r := (s.fl.get f).eosCheck (s.eosLevel f)
  let r := { r with
    state := .power
    phaseEnd := after s.tick t
    windowEnd := after s.tick st.minPower
    repowers := 0
    reduced := false
    limitEnd := none }
  (s.setFlip f r).heatUp st.power t

/-- A button close reaches a flipper (R75). -/
def buttonClose (s : State) (f : Flip) : State := if s.canPress f then press s f else s

/-- A button open reaches a flipper (R82). -/
def buttonOpen (s : State) (f : Flip) : State := s.setFlip f (s.fl.get f).rest

/-! ### HOLD and REPOWER (R77–R81) -/

/-- HOLD entered from POWER (R77). -/
def flipHold (s : State) (f : Flip) : State :=
  let limit := after s.tick (ms (s.cfg.flippers.get f).holdLimit)
  s.setFlip f { s.fl.get f with state := .hold, limitEnd := some limit, periodStart := s.tick }

/-- An EOS close reaches a flipper (R77, R78, R80): it counts in POWER of an EOS press, at or after
the window end. -/
def eosClose (s : State) (f : Flip) : State :=
  let r := s.fl.get f
  if r.state = .power ∧ r.timed = false ∧ reached s.tick r.windowEnd then flipHold s f else s

/-- An EOS open reaches a flipper (R79): a repower from HOLD of an EOS press if the count allows. -/
def eosOpen (s : State) (f : Flip) : State :=
  let st := s.cfg.flippers.get f
  let r := s.fl.get f
  if r.state = .hold ∧ r.timed = false ∧ r.repowers < st.maxRepowers then
    let t := stretch (ceilDiv st.maxPower 2) s.cfg.station.vnom s.sc.supply
    (s.setFlip f { r with
      state := .repower, repowers := r.repowers + 1, phaseEnd := after s.tick t }).heatUp st.power t
  else s

/-- A change of level of a switch reaches the flipper records that watch it (R73). -/
def flipperLevel (s : State) (sw : Sw) (closed : Bool) (f : Flip) : State :=
  let st := s.cfg.flippers.get f
  if st.inUse then
    if st.button = sw then if closed then buttonClose s f else buttonOpen s f
    else if st.eos = some sw then if closed then eosClose s f else eosOpen s f
    else s
  else s

/-- A change of level of a switch, for every flipper. -/
def flippersLevel (s : State) (sw : Sw) (closed : Bool) : State :=
  (List.finRange 4).foldl (fun s f => flipperLevel s sw closed f) s

/-- FLIPPER_WINDOW_END (R77): the window end is reached with the EOS closed, in an EOS press. -/
def execFlipperWindowEnd (f : Flip) (s : State) : Host.Outcome State Fault Refusal :=
  let r := s.fl.get f
  if r.state = .power ∧ r.timed = false ∧ reached s.tick r.windowEnd ∧ s.eosLevel f = some true then
    .next (flipHold s f)
  else .next s

/-- FLIPPER_POWER_END (R77). -/
def execFlipperPowerEnd (f : Flip) (s : State) : Host.Outcome State Fault Refusal :=
  let r := s.fl.get f
  if r.state = .power ∧ reached s.tick r.phaseEnd then .next (flipHold s f) else .next s

/-- REPOWER_END (R80). -/
def execRepowerEnd (f : Flip) (s : State) : Host.Outcome State Fault Refusal :=
  let r := s.fl.get f
  if r.state = .repower ∧ reached s.tick r.phaseEnd then
    .next (s.setFlip f { r with state := .hold, periodStart := s.tick })
  else .next s

/-- The hold-limit end is reached in HOLD or REPOWER (R81). -/
def State.limitDue (s : State) (f : Flip) : Bool :=
  let r := s.fl.get f
  match r.limitEnd with
  | some due =>
    (decide (r.state = .hold) || decide (r.state = .repower)) && !r.reduced && reached s.tick due
  | none => false

/-- HOLD_LIMIT_END (R81). -/
def execHoldLimitEnd (f : Flip) (s : State) : Host.Outcome State Fault Refusal :=
  if s.limitDue f then
    .next ((s.setFlip f { s.fl.get f with reduced := true }).updCh (s.cfg.flippers.get f).power
      fun c => { c with holdTimeouts := satAdd 255 c.holdTimeouts 1 })
  else .next s

/-! ### Trips (R84) -/

/-- The comparator of a flipper output is armed (R84). -/
def State.flipArmed (s : State) (f : Flip) (n : Out) : Bool :=
  let st := s.cfg.flippers.get f
  let r := s.fl.get f
  st.drives n && decide ((s.ch n).state = .flipper) &&
    match r.state with
    | .rest => false
    | .power => true
    | .repower => true
    | .hold => decide (st.hold = some n) || decide (st.hold = none)

/-- An output of the flipper trips with this current (R36, R84). -/
def State.flipTrips (s : State) (f : Flip) (n : Out) (current : Nat) : Bool :=
  s.flipArmed f n && decide ((s.prof n).trip < current)

/-- The other output of a dual-winding flipper. -/
def FlipSettings.other (st : FlipSettings) (n : Out) : Option Out :=
  if st.power = n then st.hold else some st.power

/-- A flipper output that tripped enters FAULT, the flipper is disabled and goes to REST (R84). -/
def flipperFault (s : State) (f : Flip) (n : Out) : State :=
  let r := (s.fl.get f).rest
  toFault (s.setFlip f { r with disabled := true }) n .short

/-- FLIPPER_TRIP (R84): with `partner`, both outputs are taken at the same instant, and their FAULT
NOTICE frames are handed in the order of the command. DESIGN CHOICE (log 33). -/
def execFlipperTrip (n : Out) (current : Nat) (partner : Option Nat) (s : State) :
    Host.Outcome State Fault Refusal :=
  match s.cfg.flipperOf n with
  | none => .next s
  | some f =>
    let first := s.flipTrips f n current
    let t := if first then flipperFault s f n else s
    match (s.cfg.flippers.get f).other n, partner with
    | some m, some current' =>
      if s.flipTrips f m current' then .next (flipperFault t f m) else .next t
    | _, _ => .next t

end Sys2Proof.Machine
end

