-- ==== Sys2Proof/Machine/DrawBudget.lean ====
section
/-!
DEFINITION. Frames received to completion, and the draw budget unit's own events: heard claims,
standing draws, expiry, ageing and refresh (Chapter 3).
-/
namespace Sys2Proof.Machine

/-! ### A frame received to completion (R137, R140, R155) -/

/-- LC reads frames: it has started and is past INTEGRATING (R130, R132). -/
def State.canReceive (s : State) : Bool :=
  s.lc.started && decide (s.lc.phase ≠ .integrating)

/-- The frame in progress is over and LC goes to INTERFRAME (R137). -/
def Link.frameOver (lc : Link) : Link := { lc with phase := .interframe, recRun := 0, rx := none }

/-- A heard frame renews its source's record (R50), while DB keeps a view (R70). -/
def heardFrom (s : State) (source : BitVec 6) : State :=
  if s.viewing ∧ source ≠ s.own then
    match standingIdx source with
    | some i =>
      let r := { s.db.standing.get i with lastHeard := s.tick, present := true }
      { s with db.standing := s.db.standing.set i r }
    | none => s
  else s

/-- A frame of another station reaches completion here: counted as a successful receive (R155) and
handed to DB as heard (R140). -/
def received (s : State) (source : BitVec 6) : State :=
  heardFrom { s with lc := s.lc.frameOver.countReceive } source

/-- HEARD_FRAME (R50): FAULT NOTICE, STATUS and unknown kinds (R139). -/
def execHeardFrame (_kind : BitVec 5) (f : Heard) (s : State) : Host.Outcome State Fault Refusal :=
  if s.canReceive then .next (received s f.source) else .next s

/-! ### Heard claims (R59) -/

/-- The fields of a heard CLAIM lie in their ranges (R59). -/
def claimFieldsOk (f : Heard) : Bool :=
  5 ≤ f.payload.length ∧ 1 ≤ f.prio.toNat ∧ f.prio.toNat ≤ 3 ∧ pByte f.payload 1 ≤ 15 ∧
    1 ≤ pWord f.payload 2 ∧ pWord f.payload 2 ≤ 4095 ∧ 1 ≤ pWord f.payload 4 ∧
    f.source.toNat ≤ 62

/-- A heard CLAIM is judged (R59). -/
def judgeClaim (s : State) (f : Heard) : State :=
  if s.viewing ∧ claimFieldsOk f ∧
      budgetTest s.db.viewTotal (pWord f.payload 2) (s.ceiling f.prio.toNat) then
    match outOf (pByte f.payload 1) with
    | some n =>
      let new : DrawEntry :=
        ⟨f.source, n, pWord f.payload 2, after s.tick (pWord f.payload 4), false⟩
      { s with db.table := addEntry s.tick new s.db.table }
    | none => s
  else s

/-- CLAIM_HEARD (R59). -/
def execClaimHeard (f : Heard) (s : State) : Host.Outcome State Fault Refusal :=
  if s.canReceive then .next (judgeClaim (received s f.source) f) else .next s

/-! ### Standing draws (R51, R65, R66) -/

/-- A heard STANDING frame sets its station's record; a fall is a view decrease (R66). `old` is the
record before the frame. -/
def standingSet (s : State) (i : Fin 63) (old : Standing) (d : Nat) : State :=
  let r : Standing := ⟨d, s.tick, true⟩
  let s := { s with db.standing := s.db.standing.set i r }
  if old.present ∧ d < old.draw then viewDecrease s else s

/-- STANDING_HEARD (R66). -/
def execStandingHeard (f : Heard) (s : State) : Host.Outcome State Fault Refusal :=
  if s.canReceive then
    let t := received s f.source
    if t.viewing ∧ f.source ≠ t.own ∧ 2 ≤ f.payload.length then
      match standingIdx f.source with
      | some i => .next (standingSet t i (s.db.standing.get i) (min 4095 (pWord f.payload 1)))
      | none => .next t
    else .next t
  else .next s

/-- A record is unheard for 10000 ticks: present, not the own one (R51). -/
def State.ageDue (s : State) (i : Fin 63) : Bool :=
  let r := s.db.standing.get i
  s.viewing && r.present && decide (s.own.toNat ≠ i.val) &&
    decide (Config.ageingTicks ≤ age s.tick r.lastHeard)

/-- AGEING_OUT (R51). -/
def execAgeingOut (i : Fin 63) (s : State) : Host.Outcome State Fault Refusal :=
  if s.ageDue i then
    let r := { s.db.standing.get i with draw := 0, present := false }
    .next (viewDecrease { s with db.standing := s.db.standing.set i r })
  else .next s

/-- ENTRY_EXPIRY (R47): all entries reached leave together, as one view decrease. -/
def execEntryExpiry (s : State) : Host.Outcome State Fault Refusal :=
  if s.db.table.any (fun e => reached s.tick e.expiry) then
    .next (viewDecrease
      { s with db.table := s.db.table.filter fun e => !reached s.tick e.expiry })
  else .next s

/-- The refresh timer runs out (R65). -/
def State.refreshDue (s : State) : Bool :=
  match s.db.refresh with
  | some due => reached s.tick due && decide (s.sl.station = .run) && !s.isolated
  | none => false

/-- REFRESH_EXPIRY (R65). -/
def execRefreshExpiry (s : State) : Host.Outcome State Fault Refusal :=
  if s.refreshDue then .next (announceStanding s) else .next s

end Sys2Proof.Machine
end

