-- ==== Sys2Proof/Machine/Sense.lean ====
section
/-!
DEFINITION. The sense converter and its arbiter, the open check, the supply state and the heat decay
pass (Chapter 2; R21, R22).
-/
namespace Sys2Proof.Machine

/-! ### Events of the tick count -/

/-- The event falls at this tick and has not been taken (R1). -/
def State.falls (s : State) (f : Falling) : Bool := s.falling.contains f

/-- The event is taken. -/
def State.take (s : State) (f : Falling) : State := { s with falling := s.falling.erase f }

/-! ### The arbiter (R29, R30) -/

/-- The converter starts a supply reading. -/
def Sense.startSupply (sc : Sense) : Sense :=
  { sc with waitSupply := .none, conv := some ⟨.supply, Config.conversionUnits⟩ }

/-- The arbiter hands on a free converter (R30): an overdue supply reading, then the waiting current
conversion of the lowest output, then a waiting supply reading. -/
def Sense.serve (sc : Sense) : Sense :=
  if sc.conv.isSome then sc
  else if sc.waitSupply = .overdue then sc.startSupply
  else match firstFin 16 (fun n => (sc.waitCurrent.get n).isSome) with
    | some n =>
      { sc with
        waitCurrent := sc.waitCurrent.set n none
        conv := some ⟨.current n ((sc.waitCurrent.get n).getD 0), Config.conversionUnits⟩ }
    | none => if sc.waitSupply = .waiting then sc.startSupply else sc

/-- The converter falls free and is handed on (R30). -/
def Sense.free (sc : Sense) : Sense := Sense.serve { sc with conv := none }

/-- A supply reading is placed at a slot (R31). -/
def SupplyWait.place : SupplyWait → SupplyWait
  | .none => .waiting
  | .waiting => .overdue
  | .overdue => .overdue

/-- The station has supply slots (R31). -/
def State.hasSlots (s : State) : Bool :=
  s.viewing || decide (s.sl.station = .unconfigured)

/-- SUPPLY_SLOT (R31). -/
def execSupplySlot (s : State) : Host.Outcome State Fault Refusal :=
  if s.falls .supplySlot then
    let s := s.take .supplySlot
    .next { s with sc := Sense.serve { s.sc with waitSupply := s.sc.waitSupply.place } }
  else .next s

/-- SUPPLY_READING_END (R30, R32, R33, R34): in UNCONFIGURED the offset is 0 and the state stays
LOW. -/
def execSupplyReadingEnd (raw : BitVec 10) (s : State) : Host.Outcome State Fault Refusal :=
  match s.sc.conv with
  | some ⟨.supply, _⟩ =>
    let v := clampTo 1023 (raw.toNat + s.cfg.station.offset)
    let sc := { s.sc.free with supply := v }
    if s.sl.station = .unconfigured then .next { s with sc := sc }
    else
      let sc' := supplyCounts sc s.cfg.station.under v
      if sc.supplyState = .low ∧ sc'.supplyState = .normal then .next (select { s with sc := sc' })
      else .next { s with sc := sc' }
  | _ => .next s

/-! ### The open check (R21, R22, R29, R35) -/

/-- An open check is pending (R21). -/
def Channel.checking (c : Channel) : Channel := { c with checkDue := none, openPending := true }

/-- CS counts an unchecked POWER phase (R25). -/
def State.uncheckedPhase (s : State) : State := { s with cs.unchecked := bump s.cs.unchecked }

/-- The waiting current conversion of output n becomes that of a phase (R29). -/
def Sense.request (sc : Sense) (n : Out) (phase : Tick) : Sense :=
  { sc with waitCurrent := sc.waitCurrent.set n (some phase) }

/-- OPEN_CHECK_REQUEST (R21, R29): a waiting request of the output is replaced and its phase counted
unchecked. -/
def execOpenCheckRequest (n : Out) (s : State) : Host.Outcome State Fault Refusal :=
  let c := s.ch n
  match c.checkDue with
  | some due =>
    if c.state = .power ∧ reached s.tick due then
      let t := s.updCh n Channel.checking
      let t := if (s.sc.waitCurrent.get n).isSome then t.uncheckedPhase else t
      .next { t with sc := (s.sc.request n c.powerStart).serve }
    else .next s
  | none => .next s

/-- The current reading of a raw result (R35). -/
def currentOf (scale : Nat) (offset : Int) (raw : BitVec 10) : Nat :=
  clampTo 4095 (raw.toNat * scale + offset)

/-- The consecutive-open count after an open-check result (R22). -/
def Channel.checked (c : Channel) (low : Bool) : Channel :=
  { c with openPending := false, openCount := if low then satAdd 3 c.openCount 1 else 0 }

/-- An open-check result returns to CS (R22): used in its own POWER phase, else counted
unchecked. -/
def openCheckResult (s : State) (n : Out) (phase : Tick) (i : Nat) : State :=
  if (s.ch n).state = .power ∧ (s.ch n).powerStart = phase then
    s.updCh n (·.checked (decide (i < (s.prof n).openThreshold)))
  else (s.updCh n fun c => { c with openPending := false }).uncheckedPhase

/-- CURRENT_CONVERSION_END (R22, R30, R35). -/
def execCurrentConversionEnd (raw : BitVec 10) (s : State) : Host.Outcome State Fault Refusal :=
  match s.sc.conv with
  | some ⟨.current n phase, _⟩ =>
    let i := currentOf s.cfg.station.scale (s.prof n).offset raw
    let sc := { s.sc.free with last := s.sc.last.set n i }
    .next (openCheckResult { s with sc := sc } n phase i)
  | _ => .next s

/-! ### Heat decay (R44) -/

/-- Every heat lowered by its decay (R44). -/
def decayHeat (s : State) : State :=
  { s with cs.chan := s.cs.chan.mapIdx fun n c =>
      { c with heat := c.heat - (s.prof n).heatDecay } }

/-- A pass lowers some heat (R44). -/
def State.decayLowers (s : State) : Bool :=
  (List.finRange 16).any fun n => 0 < (s.ch n).heat && 0 < (s.prof n).heatDecay

/-- HEAT_DECAY_PASS (R44). -/
def execHeatDecayPass (s : State) : Host.Outcome State Fault Refusal :=
  if s.falls .heatDecay then
    let s := s.take .heatDecay
    if s.decayLowers then .next (select (decayHeat s)) else .next s
  else .next s

end Sys2Proof.Machine
end

