-- ==== Sys2Proof/Machine/Lamps.lean ====
section
/-!
DEFINITION. The lamp controller: LAMP_SET, windows, soft-start, the tilt group, and the beat timer
with its resync (Chapter 7).
-/
namespace Sys2Proof.Machine

/-! ### Lamps (R115–R122) -/

/-- A LAMP_SET request (R115, R120), taken in RUN. -/
def lampSet (s : State) (l : Lamp) (mode : LampMode) (b : Nat) (pattern : BitVec 16) : State :=
  if s.sl.station = .run then
    let r := s.lp.lamps.get l
    let r := { r with mode := mode, b := b, pattern := pattern }
    let r := if r.step = 0 then r else { r with step := 1, left := 4 }
    { s with lp.lamps := s.lp.lamps.set l r }
  else s

/-- The play state forces tilt-group lamps dark (R122). -/
def PlayState.dark : PlayState → Bool
  | .tilt => true
  | .slam => true
  | .idle => false
  | .play => false

/-- The window is lit (R117, R118). -/
def LampRec.isLit (r : LampRec) (forced : Bool) (beat : BitVec 8) : Bool :=
  !(forced && r.tiltGroup) &&
    (match r.mode with
      | .off => false
      | .on => true
      | .flash => r.pattern.getLsbD (beat.toNat % 16)) && decide (1 ≤ r.b)

/-- The step and windows left after a window at `step` with `left` windows to run (R119). -/
def softAdvance (step left : Nat) : Nat × Nat :=
  if left - 1 = 0 then if step = 3 then (0, 0) else (step + 1, 4) else (step, left - 1)

/-- A lit window of a running soft-start (R119). -/
def LampRec.softWindow (r : LampRec) (step left : Nat) : LampRec :=
  { r with
    lit := true
    duty := ceilDiv (r.b * step) 4
    step := (softAdvance step left).1
    left := (softAdvance step left).2 }

/-- A lamp record at its window start (R117, R119, R121). -/
def LampRec.window (r : LampRec) (forced : Bool) (beat : BitVec 8) : LampRec :=
  if r.isLit forced beat then
    if r.lit = false then r.softWindow 1 4
    else if r.step = 0 then { r with duty := r.b }
    else r.softWindow r.step r.left
  else
    { r with lit := false, step := 0, left := 0, duty := if r.preheat ∧ 1 ≤ r.b then 1 else 0 }

/-- WINDOW_START (R116, R117). -/
def execWindowStart (l : Lamp) (s : State) : Host.Outcome State Fault Refusal :=
  if s.falls (.window l) ∧ s.sl.station = .run then
    let s := s.take (.window l)
    let r := (s.lp.lamps.get l).window s.pc.state.dark s.lp.beat
    .next { s with lp.lamps := s.lp.lamps.set l r }
  else .next s

/-- The gates of the tilt-group lamps go off for the rest of their windows (R122). -/
def darkenTiltGroup (s : State) : State :=
  { s with lp.lamps := s.lp.lamps.mapIdx fun _ r =>
      if r.tiltGroup then { r with duty := 0, step := 0, left := 0, lit := false } else r }

/-! ### The beat (R124–R128) -/

/-- LP hands LC a BEAT frame for slot 1 at phase 0 of a beat that is a multiple of 8 (R125). -/
def handBeat (s : State) (beat : BitVec 8) : State :=
  if s.cfg.station.beatSender ∧ s.sl.station = .run ∧ s.lc.state ≠ .silent ∧
      beat.toNat % 8 = 0 then
    { s with lc := s.lc.place 1 (beatFrame s.own beat) }
  else s

/-- The beat number whose phase 0 falls at this tick, not yet taken. -/
def State.beatFalls (s : State) : Option (BitVec 8) :=
  s.falling.findSome? fun f => match f with
    | .beatZero beat => some beat
    | _ => none

/-- BEAT_PHASE_ZERO (R125). -/
def execBeatPhaseZero (s : State) : Host.Outcome State Fault Refusal :=
  match s.beatFalls with
  | some beat => .next (handBeat (s.take (.beatZero beat)) beat)
  | none => .next s

/-- The window of the BEAT in slot 1 is over: it waits at phase 4 or above, or in another beat
(R126). -/
def State.beatLate (s : State) : Bool :=
  match s.lc.slots.get 1 with
  | some sl =>
    !sl.onWire && (decide (4 ≤ s.lp.phase) || decide (pByte sl.frame.payload 1 ≠ s.lp.beat.toNat))
  | none => false

/-- BEAT_WITHDRAW (R126). -/
def execBeatWithdraw (s : State) : Host.Outcome State Fault Refusal :=
  if s.beatLate then .next { s with lc := s.lc.empty 1 } else .next s

/-- The aligned beat number (R128). -/
def alignedBeat (p : Nat) (sofBeat : BitVec 8) : BitVec 8 := if p ≤ 160 then sofBeat else sofBeat + 1

/-- The beat number after the adoption of R128. -/
def adoptBeat (beat sender aligned : BitVec 8) : BitVec 8 :=
  let d := (sender - aligned).toNat
  if 1 ≤ d ∧ d ≤ 127 then beat + BitVec.ofNat 8 d else beat

/-- The phase after an advance passes 319 (R127). -/
def advanceWraps (phase p j : Nat) : Bool :=
  decide (160 < p) && decide (319 < phase + min (320 - p) j)

/-- The beat timer corrected by a BEAT (R127, R128). -/
def Lamps.resync (lp : Lamps) (p : Nat) (sofBeat sender : BitVec 8) (j : Nat) : Lamps :=
  let beat := adoptBeat lp.beat sender (alignedBeat p sofBeat)
  if p ≤ 160 then { lp with beat := beat, phase := lp.phase - min p j }
  else if advanceWraps lp.phase p j then
    { lp with beat := beat + 1, phase := lp.phase + min (320 - p) j - 320 }
  else { lp with beat := beat, phase := lp.phase + min (320 - p) j }

/-- LP takes a heard BEAT, in JOINING and RUN (R125, R127). -/
def takeBeat (s : State) (p : Nat) (sofBeat sender : BitVec 8) : State :=
  let j := s.cfg.station.resync
  let t := { s with lp := s.lp.resync p sofBeat sender j }
  if advanceWraps s.lp.phase p j then handBeat t t.lp.beat else t

/-- BEAT_RECEIVED (R127). -/
def execBeatReceived (f : Heard) (sofPhase : Fin 320) (sofBeat : BitVec 8) (s : State) :
    Host.Outcome State Fault Refusal :=
  if s.canReceive then
    let t := received s f.source
    match f.payload with
    | [] => .next t
    | sender :: _ => if t.viewing then .next (takeBeat t sofPhase.val sofBeat sender) else .next t
  else .next s

end Sys2Proof.Machine
end

