-- ==== Sys2Proof/Machine/PlayControl.lean ====
section
/-!
DEFINITION. Play control: the play state, gating by class, raising tilt, slam and game, and the
table stop (Chapter 11).
-/
namespace Sys2Proof.Machine

/-! ### Gating (R173) -/

/-- A CS output whose class becomes disabled (R173). Its train is cancelled as R98 states. -/
def gateOutput (s : State) (n : Out) : State :=
  let t := s.updCh n Channel.dropWork
  let cut := if (s.prof n).cool = 0 then toOff t n else toCool t n
  match (s.ch n).state with
  | .power => cut
  | .hold => cut
  | .gap => cut
  | .queued => toOff (dequeue t n) n
  | _ => t

/-- The outputs of the classes that `new` disables and `old` did not (R173). -/
def newlyGated (cfg : Settings) (old new : PlayState) (n : Out) : Bool :=
  let p := cfg.profiles.get n
  p.mode.isCS && classDisabled new p.cls && !classDisabled old p.cls

/-- All newly gated outputs, then the own standing draw (R64, R173). -/
def gateOutputs (s : State) (old new : PlayState) : State :=
  updateStanding ((List.finRange 16).foldl
    (fun s n => if newlyGated s.cfg old new n then gateOutput s n else s) s)

/-- What a change of the play state does to coils, flippers and lamps (R83, R122, R173). -/
def playEffects (s : State) (old new : PlayState) : State :=
  let s := gateOutputs s old new
  let s := if new = .play then s else restFlippers s
  if new.dark then darkenTiltGroup s else s

/-- The change of Table 11-1 for a TILT or GAME frame (R171), in RUN (R170). -/
def playChange (s : State) (k : PlayFrame) : State :=
  if s.sl.station = .run then
    let old := s.pc.state
    let new := k.next old
    let stopped := k.stopped s.pc.stopped
    let t := { s with pc.state := new, pc.stopped := stopped }
    if new = old then if stopped = s.pc.stopped then t else select t
    else select (playEffects t old new)
  else s

/-- A completed TILT or GAME frame handed to PC (R171): a code not assigned is not acted on. -/
def playFrameTaken (s : State) (kind : BitVec 5) (payload : List Byte) : State :=
  match playFrameOf kind payload with
  | some k => playChange s k
  | none => s

/-- TILT_RECEIVED (R171), from another station; an own TILT is taken within OWN_FRAME_COMPLETE. -/
def execTiltReceived (f : Heard) (s : State) : Host.Outcome State Fault Refusal :=
  if s.canReceive then .next (playFrameTaken (received s f.source) 1 f.payload) else .next s

/-- GAME_RECEIVED (R171), from another station; an own GAME is taken within OWN_FRAME_COMPLETE. -/
def execGameReceived (f : Heard) (s : State) : Host.Outcome State Fault Refusal :=
  if s.canReceive then .next (playFrameTaken (received s f.source) 2 f.payload) else .next s

/-- RAISE_TILT, RAISE_SLAM, GAME_START or GAME_OVER (R172): the frame is handed; where LC refuses it
in SILENT, or drops it for a full queue, PC applies its change at once. -/
def raisePlay (s : State) (k : PlayFrame) : State :=
  let f := playFrame s.own k
  if s.lc.state = .silent ∨ s.lc.drops f then playChange (s.hand f) k else s.hand f

/-! ### The table stop (R69, R174, R175) -/

/-- DB empties the draw table and every standing draw; present flags and last-heard ticks stay
(R69). -/
def clearView (s : State) : State :=
  { s with
    db.table := []
    db.standing := s.db.standing.mapIdx fun _ r => { r with draw := 0 } }

/-- A channel at the table stop (R175): OFF unless in FAULT. -/
def Channel.stop (c : Channel) : Channel :=
  if c.state = .fault then c
  else { c with
    state := .off, repeats := 0, holdWanted := false, train := none, holdDraw := 0
    checkDue := none }

/-- The claim in flight at the table stop, unless the STOP pattern has already cut its frame short
(R63, R69). -/
def withdrawInFlight (s : State) : State :=
  match s.db.claim with
  | some c => withdrawClaim s c.output
  | none => s

/-- Every coil output stopped and the queue emptied (R175). -/
def stopCoils (s : State) : State :=
  { s with
    cs.chan := s.cs.chan.mapIdx fun n c => if (s.prof n).mode.isCS then c.stop else c
    cs.queue := [] }

/-- PC takes the table stop (R175): in full in RUN, the view alone in JOINING, nothing otherwise. -/
def tableStop (s : State) : State :=
  if s.sl.station = .run then
    let held := s.ownDraw
    let t := clearView (restFlippers (withdrawInFlight (stopCoils { s with pc.stopped := true })))
    if 0 < held then announceStanding t else t
  else if s.sl.station = .joining then clearView s
  else s

/-- A TABLE_STOP action (R144, R174): LC drives the STOP pattern, a pattern already driven is not
lengthened; in SILENT the stop is taken locally. -/
def raiseStop (s : State) : State :=
  if s.lc.state = .silent then tableStop s
  else if s.lc.stopLeft = 0 then { s with lc.stopLeft := Config.stopBits }
  else s

end Sys2Proof.Machine
end

