-- ==== Sys2Proof/Machine/Status.lean ====
section
/-!
DEFINITION. The contents of the STATUS pages and the answer to a QUERY (R26, R87, R95, R113, R181,
Table 12-4).
-/
namespace Sys2Proof.Machine

/-- Bits as a number, the lowest first. -/
def bitsNum : List Bool → Nat
  | [] => 0
  | b :: rest => (if b then 1 else 0) + 2 * bitsNum rest

/-- The status code an output reports (R3, R12, Table 1-5). -/
def State.codeOf (s : State) (n : Out) : Nat :=
  statusCode (s.ch n).state (match s.entryOf n with | some e => e.inFlight | none => false)

/-- Two status codes in a byte, the lower-numbered output in the high half (page 2). -/
def codeByte (s : State) (n : Nat) : Byte :=
  byte ((match outOf n with | some i => s.codeOf i | none => 0) * 16 +
    (match outOf (n + 1) with | some i => s.codeOf i | none => 0))

/-- Four fault kinds in a byte, the lowest-numbered output first (page 3). -/
def kindByte (s : State) (n : Nat) : Byte :=
  let code (i : Nat) : Nat := match outOf i with | some o => (s.ch o).faultKind.code | none => 0
  byte (code n * 64 + code (n + 1) * 16 + code (n + 2) * 4 + code (n + 3))

/-- 24 switch bits as three bytes, S23 first (page 6). -/
def switchBytes (p : Sw → Bool) : List Byte :=
  let v := bitsNum ((List.finRange 24).map p)
  [byte (v / 65536), byte (v / 256), byte v]

/-- Page 7 + n, part 0 (R26, Table 12-4). Bit 4 of byte 7, which the table gives no item, is 0. DESIGN
CHOICE (log 46). -/
def channelPart (s : State) (n : Out) : List Byte :=
  let c := s.ch n
  let e := s.entryOf n
  let flag (p : Entry → Bool) : Bool := match e with | some e => p e | none => false
  let k := match e with | some e => if e.burst then s.entryK e else 0 | none => 0
  word (s.sc.last.get n) ++ word c.heat ++
    [byte (c.repeats + 4 * bitsNum [c.holdWanted, c.overflow, c.openPending, flag (·.waits),
      flag (·.inFlight), flag (·.guard)]),
     byte (c.openCount * 64 + (if e.isSome then 32 else 0) + k),
     byte c.holdTimeouts]

/-- Page 7 + n, part 1: the train record (R95). Byte 6 is 0 where the record has no done code. DESIGN
CHOICE (log 34). -/
def trainPart (tr : Train) : List Byte :=
  [byte (bitsNum [tr.free, tr.stopRequested, tr.wrap, tr.done.isSome] + 16 * tr.size),
   byte tr.remaining] ++ word tr.period ++ [tr.done.getD 0] ++ word tr.fired

/-- Page 7 + n, part 2: the running burst (R95). -/
def burstPart (b : Burst) : List Byte :=
  [byte b.kPrime] ++ word b.period ++ word b.t ++ [byte b.started]

/-- Page 7 + n, part 3: the flipper of a flipper output (R87, Table 12-4). Bits 7–3 of byte 2 and bits 7–4
of bytes 4 and 5, which the table gives no item, are 0. DESIGN CHOICE (log 46). -/
def flipperPart (s : State) (f : Flip) (n : Out) : List Byte :=
  let isHold := decide ((s.cfg.flippers.get f).power ≠ n)
  let r := s.fl.get f
  byte (f.val + if isHold then 4 else 0) ::
    if isHold then []
    else
      [byte r.state.code, byte (bitsNum [r.timed, r.reduced, r.faulty, r.disabled]),
       byte (r.repowers + 4 * r.closedCount)]

/-- The parts of page 7 + n, with their numbers. Part 2 is sent while the burst figures are held, so
through the COOL after the last pulse (R94, R95). DESIGN CHOICE (log 42). -/
def outputParts (s : State) (n : Out) : List (Nat × List Byte) :=
  let tr := (s.ch n).train
  [(0, channelPart s n)] ++
    (match tr with | some tr => [(1, trainPart tr)] | none => []) ++
    (match tr.bind (·.burst) with | some b => [(2, burstPart b)] | none => []) ++
    (if (s.prof n).mode = .flipper then
      match s.cfg.flipperOf n with
      | some f => [(3, flipperPart s f n)]
      | none => []
    else [])

/-- The parts of a page 0–22 in part order (Table 12-4). -/
def pageParts (s : State) (page : Nat) : List (Nat × List Byte) :=
  match page with
  | 0 => [(0, [byte s.sl.station.code, byte s.pc.code, byte s.lc.state.code, byte s.lc.TEC,
      byte s.lc.REC, byte s.own.toNat, byte s.sl.reason.code])]
  | 1 => [(0, word s.sc.supply ++ [byte s.sc.supplyState.code] ++ word s.db.viewTotal ++
        word s.ownDraw),
      (1, [byte s.db.table.length, byte (s.db.table.filter (·.withdrawn)).length,
        byte s.cs.queue.length, if s.isolated then 1 else 0])]
  | 2 => [(0, [0, 2, 4, 6].map (codeByte s)), (1, [8, 10, 12, 14].map (codeByte s))]
  | 3 => [(0, [0, 4, 8, 12].map (kindByte s))]
  | 4 => [(0, word s.cs.busyDrop ++ word s.cs.waitDrop ++ word s.db.deny),
      (1, word s.pc.tiltDrop)]
  | 5 => [(0, word s.er.unmatched ++ word s.er.badCommand ++ word s.lc.txDrop),
      (1, word s.cs.unchecked)]
  | 6 => [(0, switchBytes s.switchClosed ++
        switchBytes fun sw => decide ((s.sw.sw.get sw).state = .stuck)),
      (1, word s.sw.stuckCount)]
  | n + 7 => match outOf n with
    | some o => outputParts s o
    | none => []

/-- The STATUS frames of a page (R181). -/
def statusFrames (s : State) (page : Nat) : List Frame :=
  if page ≤ 22 then (pageParts s page).map fun (part, contents) =>
    statusFrame s.own page part contents
  else [noPageFrame s.own page]

/-- Taking part 0 of page 7 + n clears the repeat-overflow flag of output n (R26, R181). -/
def clearOverflow (s : State) (page : Nat) : State :=
  if 7 ≤ page then
    match outOf (page - 7) with
    | some n => s.updCh n fun c => { c with overflow := false }
    | none => s
  else s

/-- SL hands LC the STATUS frames of a page, its contents as they stand (R181). -/
def answerQuery (s : State) (page : Nat) : State :=
  let lc := (statusFrames s page).foldl Link.hand s.lc
  let s := if s.lc.state = .silent then s else clearOverflow s page
  { s with lc := lc }

end Sys2Proof.Machine
end

