-- ==== Sys2Proof/Machine/Router.lean ====
section
/-!
DEFINITION. The event router: actions, filters, EVENT frames and command frames (Chapter 10).
-/
namespace Sys2Proof.Machine

/-! ### Actions (R110, R167, R168) -/

/-- An action handed to its owner (R110, R168). -/
def runAction (s : State) : Action → State
  | .notInUse => s
  | .fire n => coilRequest s n (.fire none)
  | .hold n => coilRequest s n .hold
  | .release n => coilRequest s n .release
  | .train n req => coilRequest s n (.train req)
  | .trainStop n cancel => coilRequest s n (.trainStop cancel)
  | .lampSet l mode b pattern => lampSet s l mode b pattern
  | .raiseTilt => raisePlay s .tilt
  | .raiseSlam => raisePlay s .slam
  | .tableStop => raiseStop s
  | .gameStart => raisePlay s .start
  | .gameOver => raisePlay s .over

/-! ### Events (R164–R166) -/

/-- A LIST filter's action for a key: its first value before its second (R165, R166). -/
def Filter.listMatch (key : BitVec 16) : Filter → Option (Fin 32)
  | .list v a v' a' => if key = v then some a else if key = v' then some a' else none
  | _ => none

/-- A MASK filter's action for a key (R165). -/
def Filter.maskMatch (key : BitVec 16) : Filter → Option (Fin 32)
  | .mask v m a => if key &&& m = v &&& m then some a else none
  | _ => none

/-- The LIST pass, then the MASK pass (R166). -/
def matchKey (filters : List Filter) (key : BitVec 16) : Option (Fin 32) :=
  (filters.findSome? (Filter.listMatch key)).or (filters.findSome? (Filter.maskMatch key))

/-- The unmatched counter (R169). -/
def State.countUnmatched (s : State) : State :=
  { s with er.unmatched := bump s.er.unmatched }

/-- A completed EVENT frame, heard or own, in RUN (R164, R166). -/
def routeEvent (s : State) (source : BitVec 6) (payload : List Byte) : State :=
  if s.sl.station = .run ∧ 3 ≤ payload.length then
    if 1 < pByte payload 2 then s.countUnmatched
    else
      match matchKey s.cfg.filters.items
          (eventKey source (pByte payload 2 = 1) (byte (pByte payload 3))) with
      | some a => runAction s (s.cfg.actions.get a)
      | none => s.countUnmatched
  else s

/-- EVENT_RECEIVED (R164), from another station; an own EVENT is routed within
OWN_FRAME_COMPLETE. -/
def execEventReceived (f : Heard) (s : State) : Host.Outcome State Fault Refusal :=
  if s.canReceive then .next (routeEvent (received s f.source) f.source f.payload) else .next s

/-! ### Commands (R161–R163) -/

/-- The bad-command counter (R169). -/
def State.countBad (s : State) : State :=
  { s with er.badCommand := bump s.er.badCommand }

/-- A well-formed command handed to its owner (R163); a QUERY of a page above 22 is counted and
answered (R162). -/
def runCommand (s : State) : Command → State
  | .coil n r => coilRequest s n r
  | .lampSet l mode b pattern => lampSet s l mode b pattern
  | .clear n => clearOutput s n
  | .query page => answerQuery (if 22 < page then s.countBad else s) page

/-- ER admits the frame (R161): the station state and the kind, then the destination; a frame of
length 0 has none and is malformed. -/
def State.admits (s : State) (k : CommandKind) (payload : List Byte) : Bool :=
  (decide (s.sl.station = .run) ||
    (decide (s.sl.station = .unconfigured) && decide (k = .query))) &&
    (payload.isEmpty || addressed s.own payload)

/-- A completed command frame (R161–R163). -/
def commandTaken (s : State) (k : CommandKind) (payload : List Byte) : State :=
  if s.admits k payload then
    match readCommand s.cfg k payload with
    | some c => runCommand s c
    | none => s.countBad
  else s

/-- A command frame received to completion. It is counted as a successful receive first (R155), so a
reply it asks for shows REC and the link state with it counted (R181). DESIGN CHOICE (log 36). -/
def commandReceived (s : State) (k : CommandKind) (f : Heard) : State :=
  if s.canReceive then commandTaken (received s f.source) k f.payload else s

/-- FIRE (R6, R161–R163). -/
def execFire (f : Heard) (s : State) : Host.Outcome State Fault Refusal :=
  .next (commandReceived s .fire f)

/-- HOLD (R7, R161–R163). -/
def execHold (f : Heard) (s : State) : Host.Outcome State Fault Refusal :=
  .next (commandReceived s .hold f)

/-- RELEASE (R18, R161–R163). -/
def execRelease (f : Heard) (s : State) : Host.Outcome State Fault Refusal :=
  .next (commandReceived s .release f)

/-- TRAIN (R89, R161–R163). -/
def execTrain (f : Heard) (s : State) : Host.Outcome State Fault Refusal :=
  .next (commandReceived s .train f)

/-- TRAIN_STOP (R97, R161–R163). -/
def execTrainStop (f : Heard) (s : State) : Host.Outcome State Fault Refusal :=
  .next (commandReceived s .trainStop f)

/-- LAMP (R115, R161–R163). -/
def execLamp (f : Heard) (s : State) : Host.Outcome State Fault Refusal :=
  .next (commandReceived s .lamp f)

/-- CLEAR (R24, R161–R163). -/
def execClear (f : Heard) (s : State) : Host.Outcome State Fault Refusal :=
  .next (commandReceived s .clear f)

/-- QUERY (R161–R163, R181). -/
def execQuery (f : Heard) (s : State) : Host.Outcome State Fault Refusal :=
  .next (commandReceived s .query f)

end Sys2Proof.Machine
end

