-- ==== Sys2Proof/Machine/LinkEvents.lean ====
section
/-!
DEFINITION. The link controller's events: offering, arbitration, the ends of own frames, errors,
SILENT and recovery, the STOP pattern (Chapters 8 and 9).
-/
namespace Sys2Proof.Machine

/-! ### Offering (R150) -/

/-- The arbitration field of a WAITING frame in slot i. -/
def Link.waitingField (lc : Link) (i : Fin 4) : Option Nat :=
  match lc.slots.get i with
  | some sl => if sl.onWire then none else some sl.frame.arbitration
  | none => none

/-- The slot offered: the WAITING frame with the lowest arbitration field, then the lowest slot
(R150). -/
def Link.offered (lc : Link) : Option (Fin 4) :=
  firstFin 4 fun i => match lc.waitingField i with
    | some a => (List.finRange 4).all fun j => match lc.waitingField j with
      | some b => a ≤ b
      | none => true
    | none => false

/-- LC may begin a start-of-frame at this bit (R132, R150, R157). -/
def Link.mayOffer (lc : Link) : Bool :=
  lc.started && decide (lc.phase = .idle) && decide (lc.state ≠ .silent) &&
    decide (lc.stopLeft = 0) && decide (lc.resetLeft = 0)

/-- The frame in progress at its start-of-frame bit, with the timestamps of R138. -/
def State.sofProgress (s : State) (transmitting : Bool) : Progress :=
  ⟨transmitting, s.tick, s.lp.phase, s.lp.beat, [false], false, 1, none, false⟩

/-- The offered frame is ON WIRE from this start-of-frame bit (R132, R150). -/
def offerFrame (s : State) : State :=
  match s.lc.offered with
  | some i =>
    match s.lc.slots.get i with
    | some sl =>
      let slots := s.lc.slots.set i (some { sl with onWire := true })
      let progress := s.sofProgress true
      { s with lc := { s.lc with slots := slots, phase := .frame, rx := some progress } }
    | none => s
  | none => s

/-- FRAME_OFFER (R57, R132, R150). -/
def execFrameOffer (s : State) : Host.Outcome State Fault Refusal :=
  if s.lc.mayOffer then .next (offerFrame s) else .next s

/-! ### Loss of arbitration (R57, R63, R126, R133, R150) -/

/-- A frame that lost arbitration returns to WAITING; a withdrawn CLAIM is emptied. -/
def arbitrationEnd (s : State) (i : Fin 4) (sl : Slot) : State :=
  let waiting := { s with lc.slots := s.lc.slots.set i (some { sl with onWire := false }) }
  if i = 0 then
    match s.db.claim with
    | some c =>
      if c.withdrawn then select { s with db.claim := none, lc := s.lc.empty 0 } else waiting
    | none => waiting
  else if i = 1 then waiting
  else { s with lc := s.lc.returnShared i sl sl.ackFails }

/-- ARBITRATION_LOST (R133): the rest of the frame is received. -/
def execArbitrationLost (s : State) : Host.Outcome State Fault Refusal :=
  match s.lc.onWireSlot with
  | some i =>
    match s.lc.slots.get i with
    | some sl =>
      let rx := s.lc.rx.map fun p => { p with transmitting := false }
      .next (arbitrationEnd { s with lc.rx := rx } i sl)
    | none => .next s
  | none => .next s

/-! ### Completion (R151) -/

/-- The slot of an own frame is emptied, and a shared one filled from the queue (R149, R151). -/
def Link.emptied (lc : Link) (i : Fin 4) : Link :=
  if i.val < 2 then lc.empty i else (lc.empty i).refill

/-- An own frame handed on at its completion (R140, R151). -/
def ownHandedOn (s : State) (f : Frame) : State :=
  if f.kind = 3 then select (decideClaim s s.tick)
  else if f.kind = 1 ∨ f.kind = 2 then playFrameTaken s f.kind f.payload
  else if f.kind = 8 then routeEvent s s.own f.payload
  else s

/-- OWN_FRAME_COMPLETE (R151). The head of the outgoing queue moves up before the frame is handed on
(R149). DESIGN CHOICE (log 37). -/
def execOwnFrameComplete (s : State) : Host.Outcome State Fault Refusal :=
  match s.lc.onWireSlot with
  | some i =>
    match s.lc.slots.get i with
    | some sl =>
      .next (ownHandedOn { s with lc := (s.lc.emptied i).frameOver.countTransmit } sl.frame)
    | none => .next s
  | none => .next s

/-! ### Entry to SILENT (R67, R158, R172) -/

/-- The play changes of the own TILT and GAME frames held in slots 2 and 3 and in the queue. -/
def Link.heldPlays (lc : Link) : List PlayFrame :=
  let held := [2, 3].filterMap fun i => (lc.slots.get i).map (·.frame)
  (held ++ lc.outq).filterMap fun f => playFrameOf f.kind f.payload

/-- Every slot and the outgoing queue cleared, recovery starting at 0 (R158). A STOP pattern under way
is driven no further, since a SILENT station drives nothing (R144, R156, R157). DESIGN CHOICE (log 39). -/
def Link.cleared (lc : Link) : Link :=
  { lc with slots := .fill 4 none, outq := [], recovery := 0, partialRun := 0, stopLeft := 0 }

/-- A list in a free order: FREE VALUE, drawn from `Config.freeOrder` at `picks` and on. -/
def freePerm {α : Type} (picks : Nat) : Nat → List α → List α
  | 0, l => l
  | fuel + 1, l =>
    let i := Config.freeOrder picks % l.length
    match l[i]? with
    | some x => x :: freePerm (picks + 1) fuel (l.eraseIdx i)
    | none => l

/-- The play changes given up together, and the selection of the change of budget mode, in a free
order (R12, R67, R172, log 13): `none` is the selection. -/
def giveUp (s : State) (plays : List PlayFrame) : State :=
  if plays = [] then select s
  else
    let items := none :: plays.map some
    (freePerm s.picks items.length items).foldl
      (fun s x => match x with | some k => playChange s k | none => select s)
      { s with picks := s.picks + items.length }

/-- DB's claim in flight cleared, its entry returned unless the claim was withdrawn (R62, R67). -/
def clearClaim (s : State) : State :=
  match s.db.claim with
  | some c =>
    let s := { s with db.claim := none }
    if c.withdrawn then s else returnEntry s c.output
  | none => s

/-- The link state became SILENT (R67, R158). `dropped` is the play change of a frame dropped by the
error that brought it, given up with those held (R152, R172). A STOP pattern cut off so is taken
locally by no block. DESIGN CHOICE (log 40). -/
def enterSilent (s : State) (dropped : Option PlayFrame) : State :=
  let plays := dropped.toList ++ s.lc.heldPlays
  let s := clearClaim s
  giveUp { s with db.refresh := none, lc := s.lc.cleared } plays

/-! ### Errors (R61, R62, R142, R143, R152) -/

/-- The error signal's level at the present bit: the link state fixes it at the signal's first bit
(R142). -/
def Link.signalDominant (lc : Link) : Bool :=
  if lc.sigLeft = Config.signalBits then decide (lc.state = .active) else lc.sigDominant

/-- A frame that ended in an error leaves the bus in its error delimiter, where its bits have not
already done so; a frame with a bad check is read on to its end field (R142). -/
def Link.errorOver (lc : Link) : Link :=
  match lc.rx with
  | some p => if p.checkBad then lc else { lc with phase := .errorDelimiter, recRun := 1, rx := none }
  | none => lc

/-- What becomes of a frame of slot 2 or 3 that ended in an error (R152), and the play change of one
given up at its 8th acknowledge failure (R172). -/
def sharedError (lc : Link) (i : Fin 4) (sl : Slot) (kind : ErrKind) : Link × Option PlayFrame :=
  if kind = .ack then
    if Config.ackFailLimit ≤ sl.ackFails + 1 then
      ({ lc.emptied i with txDrop := bump lc.txDrop }, playFrameOf sl.frame.kind sl.frame.payload)
    else (lc.returnShared i sl (sl.ackFails + 1), none)
  else (lc.returnShared i sl 0, none)

/-- An own CLAIM ended in an error (R61, R62): an acknowledge error alone decides it. -/
def claimError (s : State) (kind : ErrKind) (found : Tick) : State :=
  let s := { s with lc := s.lc.empty 0 }
  if kind = .ack then decideClaim s found else clearClaim s

/-- The error handed to the counts (R155), and what follows from the link state (R156, R158): on
entry to SILENT everything is cleared; else `rest` follows. `dropped` is the play change of a frame
that the error dropped. -/
def countError (s : State) (kind : ErrKind) (dropped : Option PlayFrame) (rest : State → State) :
    State :=
  let t := { s with lc := s.lc.countTransmitError kind }
  if t.lc.state = .silent ∧ s.lc.state ≠ .silent then enterSilent t dropped else rest t

/-- TRANSMIT_ERROR (R152), taken when the error settles (R143, log 9). -/
def execTransmitError (kind : ErrKind) (found : Tick) (s : State) :
    Host.Outcome State Fault Refusal :=
  match s.lc.onWireSlot with
  | some i =>
    match s.lc.slots.get i with
    | some sl =>
      let s := { s with lc := s.lc.errorOver }
      if i = 0 then .next (countError (claimError s kind found) kind none select)
      else if i = 1 then .next (countError { s with lc := s.lc.empty 1 } kind none id)
      else
        let (lc, dropped) := sharedError s.lc i sl kind
        .next (countError { s with lc := lc } kind dropped fun s =>
          match dropped with
          | some k => playChange s k
          | none => s)
    | none => .next s
  | none => .next s

/-- RECEIVE_ERROR (R143, R155), taken when the error settles. -/
def execReceiveError (_kind : ErrKind) (s : State) : Host.Outcome State Fault Refusal :=
  if s.canReceive then .next { s with lc := s.lc.errorOver.countReceiveError } else .next s

/-! ### Recovery and the STOP pattern -/

/-- RECOVERY_COMPLETE (R65, R67, R159). -/
def execRecoveryComplete (s : State) : Host.Outcome State Fault Refusal :=
  if s.lc.state = .silent then
    let lc := { s.lc with state := .active, TEC := 0, REC := 0, recovery := 0, partialRun := 0 }
    .next (select (announceStanding { s with lc := lc }))
  else .next s

/-- A slot whose frame the STOP pattern cut short (R153). -/
def Link.cutShort (lc : Link) (i : Fin 4) : Link :=
  match lc.slots.get i with
  | some sl =>
    if sl.onWire then
      if i.val < 2 then lc.empty i else lc.returnShared i sl sl.ackFails
    else lc
  | none => lc

/-- The error that a dominant run of 24 bits leaves to be settled: one found at the recessive bit before
the run. One found within the run is void (R143, R145). -/
def Link.errorBeforeRun (lc : Link) : Option FoundError := lc.err.filter (·.recessive)

/-- The own frame ON WIRE has ended in an error that is still to be settled, so the STOP pattern does not
cut it short (R142, R143, R145). -/
def Link.endedBeforeRun (lc : Link) : Bool := lc.errorBeforeRun.any (·.transmit)

/-- The slots at the STOP pattern (R153). -/
def Link.allCutShort (lc : Link) : Link :=
  if lc.endedBeforeRun then lc else (((lc.cutShort 0).cutShort 1).cutShort 2).cutShort 3

/-- The link controller at the STOP pattern (R143, R145, R153). INTEGRATING is kept. -/
def Link.stopRecognised (lc : Link) : Link :=
  { lc.allCutShort with
    phase := if lc.phase = .integrating then .integrating else .stop
    recRun := 0
    rx := none
    err := lc.errorBeforeRun
    sigLeft := 0 }

/-- The STOP pattern cuts the own CLAIM short (R69, R145). -/
def Link.claimCut (lc : Link) : Bool :=
  match lc.slots.get 0 with
  | some sl => sl.onWire && !lc.endedBeforeRun
  | none => false

/-- STOP_PATTERN (R69, R145, R175). -/
def execStopPattern (s : State) : Host.Outcome State Fault Refusal :=
  if s.lc.started then
    let t := { s with lc := s.lc.stopRecognised }
    .next (tableStop (if s.lc.claimCut then { t with db.claim := none } else t))
  else .next s

/-- STOP_PATTERN_END (R144, R146). -/
def execStopPatternEnd (s : State) : Host.Outcome State Fault Refusal :=
  .next { s with lc.stopLeft := 0 }

/-- INTEGRATING_END (R132). -/
def execIntegratingEnd (s : State) : Host.Outcome State Fault Refusal :=
  if s.lc.started ∧ s.lc.phase = .integrating then
    .next { s with lc := { s.lc with phase := .idle, recRun := 0 } }
  else .next s

end Sys2Proof.Machine
end

