-- ==== Sys2Proof/Machine/Switches.lean ====
section
/-!
DEFINITION. The switch scanner: debounce, stuck switches, edges and the switch rules (Chapter 6).
-/
namespace Sys2Proof.Machine

/-- The scanner runs (R101, R114). -/
def State.scanning (s : State) : Bool := s.viewing

/-- Replace a switch record. -/
def State.setSw (s : State) (sw : Sw) (r : Switch) : State :=
  { s with sw.sw := s.sw.sw.set sw r }

/-- The raw level of a line: closed? (R101). -/
def rawClosed (invert high : Bool) : Bool := high == invert

/-- A raw change of a switch (R102, R103, R106). -/
def Switch.raw (r : Switch) (st : SwitchSettings) (now : Tick) (closed : Bool) : Switch :=
  match r.state, closed with
  | .open, true => { r with state := .closing, debounceEnd := some (after now st.closeDebounce) }
  | .closing, false => { r with state := .open, debounceEnd := none }
  | .closed, false => { r with state := .opening, debounceEnd := some (after now st.openDebounce) }
  | .opening, true => { r with state := .closed, debounceEnd := none }
  | .stuck, false => { r with debounceEnd := some (after now st.openDebounce) }
  | .stuck, true => { r with debounceEnd := none }
  | .open, false => r
  | .closing, true => r
  | .closed, true => r
  | .opening, false => r

/-- RAW_CHANGE (R101, R102, R103, R106): the line takes the level; the scanner follows it where it
runs and the level is a change. -/
def execRawChange (sw : Sw) (high : Bool) (s : State) : Host.Outcome State Fault Refusal :=
  let changed := s.lines.sw.get sw ≠ high
  let s := { s with lines.sw := s.lines.sw.set sw high }
  let st := s.cfg.switches.get sw
  if s.scanning ∧ changed then
    .next (s.setSw sw ((s.sw.sw.get sw).raw st s.tick (rawClosed st.invert high)))
  else .next s

/-! ### Switch rules (R108–R111) -/

/-- A rule matches an edge (R109). -/
def Rule.matches_ (r : Rule) (sw : Sw) (close : Bool) : Bool :=
  r.inUse && decide (r.sw = sw) && decide (r.close = close)

/-- A rule's EVENT frame is handed to LC, and not made while SILENT (R111). -/
def ruleEvent (s : State) (sw : Sw) (close : Bool) (code : Byte) (prio : BitVec 3) : State :=
  if s.lc.state = .silent then s
  else s.hand (eventFrame s.own prio sw.val close code)

/-- A matching rule applied whole: its action, then its EVENT frame (R109–R111). -/
def applyRule (s : State) (r : Rule) (sw : Sw) (close : Bool) : State :=
  let s := match r.action with
    | some a => runAction s (s.cfg.actions.get a)
    | none => s
  match r.event with
  | some (code, prio) => ruleEvent s sw close code prio
  | none => s

/-- The rules of an edge, in ascending number: those that match it, in RUN (R109, R112). -/
def State.edgeRules (s : State) (sw : Sw) (close : Bool) : List Rule :=
  if s.sl.station = .run then s.cfg.rules.items.filter (·.matches_ sw close) else []

/-- The rules of an edge, applied one after the other (R109). -/
def applyRules (s : State) (sw : Sw) (close : Bool) : State :=
  (s.edgeRules sw close).foldl (fun s r => applyRule s r sw close) s

/-- Some rule matches the edge and some flipper watches the switch: the order of the two is open. -/
def State.edgeOrderOpen (s : State) (sw : Sw) (close : Bool) : Bool :=
  !(s.edgeRules sw close).isEmpty &&
    s.cfg.flippers.items.any fun f =>
      f.inUse && (decide (f.button = sw) || decide (f.eos = some sw))

/-- A reset waits next: it comes at the instant of the command in hand. DESIGN CHOICE (log 45). -/
def State.resetNext (s : State) : Bool :=
  match s.pending.head? with
  | some (.powerOnReset _ _) => true
  | some .resetLineAssert => true
  | _ => false

/-- One thing an edge brings about: a rule, or the flippers' handling of the level (`none`). -/
def edgePart (s : State) (part : Option Rule) (sw : Sw) (close : Bool) : State :=
  match part with
  | some r => applyRule s r sw close
  | none => flippersLevel s sw close

/-- An edge that a reset cuts: the rule in hand is applied whole, and nothing after it (R112). Whether
FL is first or last, and what the last thing done is: FREE VALUE (log 18, log 45). -/
def cutEdge (s : State) (sw : Sw) (close : Bool) : State :=
  let rules := (s.edgeRules sw close).map some
  let parts := if Config.freeOrder s.picks % 2 = 0 then rules ++ [none] else none :: rules
  (parts.take (Config.freeOrder (s.picks + 1))).foldl (fun s part => edgePart s part sw close)
    { s with picks := s.picks + 2 }

/-- An edge is handed to the rule table and its level change to FL (R107). Either may be taken
first: FREE VALUE where both act (log 18). A reset that waits next may cut the edge between two of its
rules (R112, log 45). -/
def edge (s : State) (sw : Sw) (close : Bool) : State :=
  if s.resetNext && !(s.edgeRules sw close).isEmpty then cutEdge s sw close
  else if s.edgeOrderOpen sw close then
    let t := { s with picks := s.picks + 1 }
    if Config.freeOrder s.picks % 2 = 0 then flippersLevel (applyRules t sw close) sw close
    else applyRules (flippersLevel t sw close) sw close
  else flippersLevel (applyRules s sw close) sw close

/-- The stuck end a close edge sets (R102). -/
def SwitchSettings.stuckEnd (st : SwitchSettings) (now : Tick) : Option Tick :=
  st.stuckCheck.map fun w => after now (ms w)

/-- The debounce end of a switch is reached (R102, R103, R106). -/
def State.debounceDue (s : State) (sw : Sw) : Bool :=
  match (s.sw.sw.get sw).debounceEnd with
  | some due => s.scanning && reached s.tick due
  | none => false

/-- DEBOUNCE_END (R102, R103, R106, R107, R112). -/
def execDebounceEnd (sw : Sw) (s : State) : Host.Outcome State Fault Refusal :=
  let r := s.sw.sw.get sw
  if s.debounceDue sw then
    match r.state with
    | .closing =>
      let stuck := (s.cfg.switches.get sw).stuckEnd s.tick
      .next (edge (s.setSw sw ⟨.closed, none, stuck⟩) sw true)
    | .opening => .next (edge (s.setSw sw ⟨.open, none, none⟩) sw false)
    | .stuck => .next (flippersLevel (s.setSw sw { r with state := .open, debounceEnd := none }) sw false)
    | _ => .next (s.setSw sw { r with debounceEnd := none })
  else .next s

/-- The stuck end of a switch in CLOSED or OPENING is reached (R105). -/
def State.stuckDue (s : State) (sw : Sw) : Bool :=
  let r := s.sw.sw.get sw
  match r.stuckEnd with
  | some due =>
    s.scanning && (decide (r.state = .closed) || decide (r.state = .opening)) &&
      reached s.tick due
  | none => false

/-- STUCK_END (R105): a running open debounce goes on as the stuck release. -/
def execStuckEnd (sw : Sw) (s : State) : Host.Outcome State Fault Refusal :=
  if s.stuckDue sw then
    let s := s.setSw sw { s.sw.sw.get sw with state := .stuck, stuckEnd := none }
    .next { s with sw.stuckCount := bump s.sw.stuckCount }
  else .next s

end Sys2Proof.Machine
end

