-- ==== Sys2Proof/Machine/Start.lean ====
section
/-!
DEFINITION. The start loader: resets, straps, the image, JOINING, RUN and UNCONFIGURED (Chapter 12),
and the reset values of every block (R27, R28, R37, R71, R88, R114, R123, R129, R146, R160, R169,
R170).
-/
namespace Sys2Proof.Machine

/-! ### Resets -/

/-- The station after a power-on reset. What is outside it stays: the input levels, the waiting
commands, and the place in the free order. -/
def powerOn (s : State) (resetLow : Bool) : State :=
  { State.reset with
    picks := s.picks
    lines := s.lines
    pending := s.pending
    sl := ⟨.reset, .none, 0, 0, 0, resetLow⟩ }

/-- Dominant bits LC still drives after an assertion of the reset line (R146): 8 where this station
was transmitting, or the rest of an error signal it was driving. -/
def Link.resetDrive (lc : Link) : Nat :=
  if lc.onWireSlot.isSome ∧ lc.err = none then Config.signalBits
  else if lc.signalDominant then lc.sigLeft
  else 0

/-- The station after an assertion of the reset line (R28): as after power-on, but heat is kept, and
LC ends what it was driving (R146). A STOP pattern handed, or an active error signal due, whose first bit
is still to come is driven whole. DESIGN CHOICE (log 26). -/
def lineReset (s : State) : State :=
  let t := powerOn s true
  { t with
    cs.chan := s.cs.chan.mapIdx fun _ c => { Channel.reset with heat := c.heat }
    lc := { Link.reset with
      rate500 := s.lc.rate500
      stopLeft := s.lc.stopLeft
      resetLeft := if 0 < s.lc.stopLeft then s.lc.resetLeft
        else max s.lc.resetLeft s.lc.resetDrive } }

/-! ### UNCONFIGURED (R130, R180) -/

/-- LC starts: bus phase INTEGRATING, link state ACTIVE, both counts 0 (R130). A drive left over from
an assertion of the reset line goes on, from here at the rate LC starts with. DESIGN CHOICE
(log 26). -/
def startLink (s : State) (rate500 : Bool) : State :=
  { s with lc := { s.lc with
      started := true, rate500 := rate500, phase := .integrating, state := .active
      TEC := 0, REC := 0, recRun := 0, domRun := 0 } }

/-- SL hands LC a STATUS frame of page 0, and the next is due 10000 ticks later (R180). -/
def handStatus (s : State) (due : Tick) : State :=
  let s := { s with lc := (statusFrames s 0).foldl Link.hand s.lc }
  { s with sl.statusDue := after due Config.statusTicks }

/-- UNCONFIGURED is entered (R130, R177, R178, R180). -/
def enterUnconfigured (s : State) (reason : Reason) (rate500 : Bool) : State :=
  let s := { s with sl.station := .unconfigured, sl.reason := reason }
  handStatus (startLink s rate500) s.tick

/-- UNCONFIGURED_STATUS (R180). -/
def execUnconfiguredStatus (s : State) : Host.Outcome State Fault Refusal :=
  if s.sl.station = .unconfigured ∧ reached s.tick s.sl.statusDue then
    .next (handStatus s s.sl.statusDue)
  else .next s

/-! ### Straps (R49, R177) -/

/-- The own record is marked present (R49). -/
def markOwn (s : State) : State :=
  match standingIdx s.own with
  | some i =>
    { s with db.standing := s.db.standing.set i { s.db.standing.get i with present := true } }
  | none => s

/-- SL reads the straps (R177). -/
def readStraps (s : State) (straps : BitVec 6) : State :=
  let s := { s with sl.number := straps, sl.resetLow := false }
  if straps = 63 then enterUnconfigured s .badStation false
  else markOwn { s with sl.station := .loading }

/-- POWER_ON_RESET (R27, R177): the straps are read at once where the reset line is high. -/
def execPowerOnReset (lineHigh : Bool) (straps : BitVec 6) (s : State) :
    Host.Outcome State Fault Refusal :=
  if lineHigh then .next (readStraps (powerOn s false) straps) else .next (powerOn s true)

/-- RESET_LINE_ASSERT (R28, R177). -/
def execResetLineAssert (s : State) : Host.Outcome State Fault Refusal :=
  .next (lineReset s)

/-- RESET_LINE_RELEASE (R177). -/
def execResetLineRelease (straps : BitVec 6) (s : State) : Host.Outcome State Fault Refusal :=
  if s.sl.station = .reset ∧ s.sl.resetLow then .next (readStraps s straps) else .next s

/-! ### The image (R178) -/

/-- Each output takes its state from its mode (R27). -/
def Channel.configured (c : Channel) (mode : CoilMode) : Channel :=
  { c with state := if mode = .flipper then .flipper else .off }

/-- A lamp record at acceptance (R115). -/
def LampSetting.start (l : LampSetting) : LampRec :=
  { LampRec.reset with b := l.initial, preheat := l.preheat, tiltGroup := l.tiltGroup }

/-- A switch at acceptance: a raw level that is closed is a raw change (R114). -/
def Switch.start (st : SwitchSettings) (now : Tick) (high : Bool) : Switch :=
  let r : Switch := ⟨.open, none, none⟩
  if rawClosed st.invert high then r.raw st now true else r

/-- The configuration is accepted and JOINING entered (R178, R179). -/
def accept (s : State) (cfg : Settings) : State :=
  let s := startLink { s with cfg := cfg } cfg.station.rate500
  { s with
    sl.station := .joining
    sl.joinEnd := after s.tick Config.joiningTicks
    cs.chan := s.cs.chan.mapIdx fun n c => c.configured (cfg.profiles.get n).mode
    lp := { Lamps.reset with
      lamps := .ofFn fun l => (cfg.lamps.get l).start
      beatOn := true }
    sw.sw := .ofFn fun i => Switch.start (cfg.switches.get i) s.tick (s.lines.sw.get i) }

/-- The bit rate of a refused image: its settings flags after a failure at check 3 or 4, else 250
kbit/s (R130, R178). -/
def refusedRate (image : List Byte) (reason : Reason) : Bool :=
  match reason with
  | .sum => (readStation (stationRec image)).rate500
  | .field => (readStation (stationRec image)).rate500
  | _ => false

/-- IMAGE_CHECK (R178). -/
def execImageCheck (image : List Byte) (s : State) : Host.Outcome State Fault Refusal :=
  if s.sl.station = .loading then
    let image := clocked 993 image
    match imageReason image with
    | .none => .next (accept s (readSettings image))
    | reason => .next (enterUnconfigured s reason (refusedRate image reason))
  else .next s

/-! ### RUN (R179) -/

/-- JOINING_END (R65, R116, R179): the lamp period starts at position 0, with the windows of L0 and
L15. -/
def execJoiningEnd (s : State) : Host.Outcome State Fault Refusal :=
  if s.sl.station = .joining ∧ reached s.tick s.sl.joinEnd then
    let s := { s with
      sl.station := .run
      lp.pos := 0
      falling := s.falling ++ [.window 0, .window 15] }
    .next (announceStanding s)
  else .next s

end Sys2Proof.Machine
end

