-- ==== Sys2Proof/Machine/LinkBits.lean ====
section
/-!
DEFINITION. The link bit by bit: frames as bits, the check, stuffing, what this station drives, and
what one bit taken does to the link controller (R130–R146, R159). What a bit brings about beyond the
link controller's own reading is a command, put in the queue to be taken next (log 8).
Bits are written true for recessive (value 1) and false for dominant (R130).
-/
namespace Sys2Proof.Machine

/-! ### A frame as bits (R131, R136) -/

/-- The low `w` bits of a number, most significant first (R131). -/
def bitsMsb : Nat → Nat → List Bool
  | 0, _ => []
  | w + 1, n => n.testBit w :: bitsMsb w n

/-- Bits, most significant first, as a number. -/
def msbNum (bits : List Bool) : Nat := bits.foldl (fun n b => 2 * n + b.toNat) 0

/-- One bit of the check computation (R136). -/
def checkStep (r : BitVec 16) (b : Bool) : BitVec 16 :=
  if b = r.getLsbD 15 then r <<< 1 else (r <<< 1) ^^^ 0x1021

/-- The check of a span of bits (R136). -/
def checkOf (bits : List Bool) : BitVec 16 := bits.foldl checkStep 0xFFFF

/-- The bits the check covers: arbitration field, format bit, length, payload (R136). -/
def Frame.covered (f : Frame) : List Bool :=
  bitsMsb 14 f.arbitration ++ (false :: (bitsMsb 4 f.payload.length ++
    (f.payload.map fun b => bitsMsb 8 b.toNat).flatten))

/-- The bits of a frame from its start-of-frame to its last check bit, without stuff bits
(Table 8-1). -/
def Frame.bits (f : Frame) : List Bool :=
  false :: (f.covered ++ bitsMsb 16 (checkOf f.covered).toNat)

/-! ### A frame in progress (R131, R134, R135) -/

/-- The length field taken, once its four bits are in. -/
def Progress.len (p : Progress) : Nat := msbNum ((p.bits.drop 16).take 4)

/-- Every bit up to the last check bit is taken. -/
def Progress.full (p : Progress) : Bool :=
  decide (20 ≤ p.bits.length) && decide (36 + 8 * p.len ≤ p.bits.length)

/-- The next bit is a stuff bit (R135). -/
def Progress.stuffNext (p : Progress) : Bool :=
  decide (p.tail = none) && decide (p.runLen = 6)

/-- The run of equal levels goes on with a bit (R135). -/
def Progress.run (p : Progress) (b : Bool) : Progress :=
  { p with runLevel := b, runLen := if b = p.runLevel then p.runLen + 1 else 1 }

/-- The check delimiter is next where every bit is taken and no stuff bit is due (R135). -/
def Progress.close (p : Progress) : Progress :=
  if p.full ∧ p.runLen ≠ 6 then { p with tail := some 0 } else p

/-- A bit that is no stuff bit is taken. -/
def Progress.data (p : Progress) (b : Bool) : Progress :=
  ({ p with bits := p.bits ++ [b] }.run b).close

/-- The check received is the check of the bits taken (R136). -/
def Progress.checkAgrees (p : Progress) : Bool :=
  let covered := (p.bits.drop 1).take (19 + 8 * p.len)
  decide (p.bits.drop (20 + 8 * p.len) = bitsMsb 16 (checkOf covered).toNat)

/-- The bytes of the payload taken. -/
def bytesOf : Nat → List Bool → List Byte
  | 0, _ => []
  | n + 1, bits => byte (msbNum (bits.take 8)) :: bytesOf n (bits.drop 8)

/-- What the frame taken carries, beside its kind. -/
def Progress.heard (p : Progress) : Heard where
  prio := BitVec.ofNat 3 (msbNum ((p.bits.drop 1).take 3))
  source := BitVec.ofNat 6 (msbNum ((p.bits.drop 9).take 6))
  payload := bytesOf p.len (p.bits.drop 20)

/-- The kind of the frame taken. -/
def Progress.kind (p : Progress) : Nat := msbNum ((p.bits.drop 4).take 5)

/-- The row of a frame received to completion, by its kind (Table 8-2, R139, R140). -/
def Progress.command (p : Progress) : Instr :=
  let f := p.heard
  match p.kind with
  | 0 => .beatReceived f (Fin.ofNat 320 p.sofPhase) p.sofBeat
  | 1 => .tiltReceived f
  | 2 => .gameReceived f
  | 3 => .claimHeard f
  | 4 => .standingHeard f
  | 8 => .eventReceived f
  | 16 => .fire f
  | 17 => .hold f
  | 18 => .release f
  | 19 => .train f
  | 20 => .trainStop f
  | 21 => .lamp f
  | 22 => .clear f
  | 23 => .query f
  | k => .heardFrame (BitVec.ofNat 5 k) f

/-! ### What one bit of a frame is (R133–R137, R141) -/

/-- What a bit of a frame turns out to be. -/
inductive BitFinding where
  /-- The frame goes on. -/
  | goes (p : Progress)
  /-- Arbitration is lost at this bit (R133). -/
  | lost (p : Progress)
  /-- The check does not agree, found at the check delimiter (R136). -/
  | badCheck (p : Progress)
  /-- The last bit before the end field of a frame with a bad check (R142). -/
  | signal
  /-- An error found at this bit (R141). -/
  | error (kind : ErrKind)
  /-- The last bit of the end field (R137). -/
  | complete
  deriving DecidableEq, Repr

/-- A stuff bit (R135, R141). -/
def Progress.stuffBit (p : Progress) (sent b : Bool) : BitFinding :=
  if p.transmitting ∧ sent ≠ b then .error .bit
  else if b = p.runLevel then .error .stuff
  else .goes (p.run b).close

/-- A bit of a field up to the check (R133, R134, R141). `p.bits.length` is its place: 1–14 the
arbitration field, 15 the format bit, 19 the last length bit. -/
def Progress.fieldBit (p : Progress) (sent b : Bool) : BitFinding :=
  let q := p.data b
  if p.transmitting ∧ sent ≠ b then
    if sent ∧ p.bits.length ≤ 14 then .lost q else .error .bit
  else if p.bits.length = 15 ∧ b then .error .form
  else if p.bits.length = 19 ∧ 9 ≤ q.len then .error .form
  else .goes q

/-- A bit after the check: 0 check delimiter, 1 acknowledge slot, 2 acknowledge delimiter, 3–9 end
field (R136, R137, R141). -/
def Progress.tailBit (p : Progress) (k : Nat) (b : Bool) : BitFinding :=
  let q := { p with tail := some (k + 1) }
  if k = 1 then
    if p.transmitting ∧ b then .error .ack else .goes q
  else if p.checkBad then if k = 2 then .signal else .goes q
  else if b = false then .error (if p.transmitting then .bit else .form)
  else if k = 0 ∧ p.transmitting = false ∧ p.checkAgrees = false then
    .badCheck { q with checkBad := true }
  else if 9 ≤ k then .complete
  else .goes q

/-- A bit of a frame in progress: `sent` by this station, `b` taken. -/
def Progress.bit (p : Progress) (sent b : Bool) : BitFinding :=
  match p.tail with
  | some k => p.tailBit k b
  | none => if p.stuffNext then p.stuffBit sent b else p.fieldBit sent b

/-! ### What this station drives (R133, R137, R142, R144, R146) -/

/-- The frame this station has ON WIRE. -/
def Link.ownFrame (lc : Link) : Option Frame :=
  match lc.onWireSlot with
  | some i => (lc.slots.get i).map (·.frame)
  | none => none

/-- The bit a transmitter sends next (R131, R135). -/
def Link.frameBit (lc : Link) (p : Progress) : Bool :=
  if p.tail.isSome then true
  else if p.stuffNext then !p.runLevel
  else match lc.ownFrame with
    | some f => f.bits.getD p.bits.length true
    | none => true

/-- A receiver acknowledges (R137): only at the acknowledge slot of a frame with no error. -/
def State.acknowledges (s : State) (p : Progress) : Bool :=
  decide (p.tail = some 1) && !p.checkBad && decide (s.lc.state ≠ .silent) &&
    (s.viewing || decide (s.sl.station = .unconfigured))

/-- LC begins a start-of-frame at this bit (R150). -/
def Link.offers (lc : Link) : Bool := lc.mayOffer && lc.offered.isSome

/-- LC drives dominant bits that belong to no frame: a STOP pattern (R144) or the end of what a
reset cut short (R146). -/
def Link.overriding (lc : Link) : Bool := decide (0 < lc.stopLeft) || decide (0 < lc.resetLeft)

/-- The level this station drives at the present bit. -/
def driveLevel (s : State) : Bool :=
  if s.lc.overriding then false
  else if s.lc.started then
    match s.lc.phase with
    | .idle => !s.lc.offers
    | .errorSignal => !s.lc.signalDominant
    | .frame => match s.lc.rx with
      | some p => if p.transmitting then s.lc.frameBit p else !s.acknowledges p
      | none => true
    | _ => true
  else true

/-! ### What one bit taken does -/

/-- The error signal begins at the next bit; in SILENT there is none (R142). -/
def Link.signal (lc : Link) : Link :=
  if lc.state = .silent then { lc with phase := .errorDelimiter, recRun := 0, rx := none }
  else { lc with phase := .errorSignal, sigLeft := Config.signalBits, rx := none }

/-- The frame in progress ends in an error of this kind, found at this bit of level `b` (R141,
R142). -/
def State.finds (s : State) (kind : ErrKind) (transmit b : Bool) : State :=
  { s with lc := { s.lc.signal with err := some ⟨kind, transmit, s.tick, b⟩ } }

/-- The own start-of-frame bit was sent dominant and taken recessive: the frame is ON WIRE and ends in
a bit error (R141). DESIGN CHOICE (log 43). -/
def startUnreached (s : State) : State := (offerFrame s).finds .bit true true

/-- A bit of an own frame that the STOP pattern overrides (R144): the frame is cut short at once, and
nothing more of it is read. At the first recessive bit, where the pattern does not reach the pair,
the frame ends in a bit error. DESIGN CHOICE (log 38). -/
def cutFrameBit (s : State) (b : Bool) : State :=
  if b then
    if s.lc.onWireSlot.isSome then s.finds .bit true b
    else { s with lc := { s.lc with phase := .errorDelimiter, recRun := 1, rx := none } }
  else { s with lc := { s.lc with rx := none } }

/-- A start-of-frame of another station: LC receives the frame (R132). -/
def startReceive (s : State) : State :=
  let progress := s.sofProgress false
  { s with lc := { s.lc with phase := .frame, recRun := 0, rx := some progress } }

/-- The commands a frame's completion brings about (R137). -/
def Progress.completed (p : Progress) : Instr :=
  if p.transmitting then .ownFrameComplete else p.command

/-- A bit in FRAME (R132). -/
def frameBitTaken (s : State) (sent b : Bool) : State × List Instr :=
  match s.lc.rx with
  | none => (cutFrameBit s b, [])
  | some p =>
    if p.transmitting ∧ s.lc.overriding then (cutFrameBit s b, [])
    else
      match p.bit sent b with
      | .goes q => ({ s with lc := { s.lc with rx := some q } }, [])
      | .lost q => ({ s with lc := { s.lc with rx := some q } }, [.arbitrationLost])
      | .badCheck q =>
        ({ s with lc := { s.lc with
          rx := some q, err := some ⟨.check, p.transmitting, s.tick, b⟩ } }, [])
      | .signal => ({ s with lc := s.lc.signal }, [])
      | .error kind => (s.finds kind p.transmitting b, [])
      | .complete => (s, [p.completed])

/-- A bit of the error signal is over (R142). A transmitter that its own error takes to SILENT within
its passive signal sends all 8 bits of it. DESIGN CHOICE (log 35). -/
def Link.signalBit (lc : Link) : Link :=
  if lc.sigLeft ≤ 1 then
    { lc with phase := .errorDelimiter, sigLeft := 0, recRun := 0 }
  else { lc with sigLeft := lc.sigLeft - 1, sigDominant := lc.signalDominant }

/-- A bit taken, by the bus phase (R132). -/
def phaseBit (s : State) (sent b : Bool) : State × List Instr :=
  match s.lc.phase with
  | .integrating =>
    let run := if b then s.lc.recRun + 1 else 0
    ({ s with lc := { s.lc with recRun := run } }, if run = 11 then [.integratingEnd] else [])
  | .idle =>
    if s.lc.offers then if b then (startUnreached s, []) else (s, [.frameOffer])
    else if b then (s, [])
    else (startReceive s, [])
  | .interframe =>
    if b then
      if s.lc.recRun + 1 = 3 then ({ s with lc := { s.lc with phase := .idle, recRun := 0 } }, [])
      else ({ s with lc := { s.lc with recRun := s.lc.recRun + 1 } }, [])
    else (startReceive s, [])
  | .errorSignal => ({ s with lc := s.lc.signalBit }, [])
  | .errorDelimiter =>
    if b then
      if s.lc.recRun + 1 = 8 then
        ({ s with lc := { s.lc with phase := .interframe, recRun := 0 } }, [])
      else ({ s with lc := { s.lc with recRun := s.lc.recRun + 1 } }, [])
    else ({ s with lc := { s.lc with recRun := 0 } }, [])
  | .stop =>
    if b then ({ s with lc := { s.lc with phase := .errorDelimiter, recRun := 1 } }, [])
    else (s, [])
  | .frame => frameBitTaken s sent b

/-- The run of dominant bits (R145), counted no further than past the STOP pattern. -/
def Link.dominantRun (lc : Link) (b : Bool) : Nat :=
  if b then 0 else min (lc.domRun + 1) (Config.stopSeen + 1)

/-- The recovery count and partial run at a bit (R159). -/
def Link.recover (lc : Link) (b : Bool) : Link :=
  if lc.state = .silent then
    if b then
      if 11 ≤ lc.partialRun then { lc with partialRun := 0, recovery := lc.recovery + 1 }
      else { lc with partialRun := lc.partialRun + 1 }
    else { lc with partialRun := 0 }
  else lc

/-- The command that hands a settled error to the counts (R143, R152). -/
def FoundError.command (e : FoundError) : Instr :=
  if e.transmit then .transmitError e.kind e.tick else .receiveError e.kind

/-- The settling of an error found earlier, at a recessive bit (R143). -/
def Link.settle (lc : Link) (b : Bool) : Link × List Instr :=
  match lc.err with
  | some e => if b then ({ lc with err := none }, [e.command]) else (lc, [])
  | none => (lc, [])

/-- A bit taken by a started LC: `sent` by this station, `b` taken. At the 24th dominant bit in a
row the STOP pattern alone counts (R145). -/
def readBit (s : State) (sent b : Bool) : State × List Instr :=
  let (lc, settled) := (s.lc.recover b).settle b
  let run := lc.dominantRun b
  let s := { s with lc := { lc with domRun := run } }
  if b = false ∧ run = Config.stopSeen then (s, [.stopPattern])
  else
    let done := s.lc.state = .silent ∧ s.lc.recovery = Config.recoverySequences
    let (s, arisen) := phaseBit s sent b
    (s, settled ++ (if done then [.recoveryComplete] else []) ++ arisen)

/-- A bit of the STOP pattern and of the drive after a reset is driven (R144, R146). -/
def Link.drove (lc : Link) : Link :=
  { lc with stopLeft := lc.stopLeft - 1, resetLeft := lc.resetLeft - 1 }

/-- The bits taken together bring about several commands only where recovery completes at a frame's
last bit; their order is open: FREE VALUE (log 2). -/
def queueArisen (s : State) (cs : List Instr) : State :=
  if cs.length ≤ 1 then { s with pending := s.pending ++ cs }
  else
    { s with
      pending := s.pending ++ freePerm s.picks cs.length cs
      picks := s.picks + cs.length }

/-- The level of a bit of the link (R130): dominant where another station drives it so, or this
station does and its drive reaches the pair. -/
def Wire.level (w : Wire) (sent : Bool) : Bool := (sent || w.cut) && !w.dominant

/-- The coming bit of the link; recessive, this station's drive reaching the pair, where none is
listed (log 6). -/
def Lines.wire (l : Lines) : Wire := l.linkIn.headD ⟨false, false⟩

/-- One bit of the link (R130): this station and the others drive it, LC takes the level and what
arises is queued. -/
def linkBit (s : State) : State :=
  let sent := driveLevel s
  let b := s.lines.wire.level sent
  let ended := if s.lc.stopLeft = 1 then [Instr.stopPatternEnd] else []
  let s := { s with bitDue := false, lines.linkIn := s.lines.linkIn.tail }
  let (s, arisen) := if s.lc.started then readBit s sent b else (s, [])
  queueArisen { s with lc := s.lc.drove } (arisen ++ ended)

end Sys2Proof.Machine
end

