-- ==== Sys2Proof/Machine/Clock.lean ====
section
/-!
DEFINITION. The station's own time: what is due at this instant, and the passing of 2 µs (R1, R30,
R31, R44, R116, R124, R130). The commands that time brings about are put in the queue, one at a time
(log 1).
-/
namespace Sys2Proof.Machine

/-! ### What is due -/

/-- Commands due for the pending entries (R11, R14). -/
def dueEntries (s : State) : List Instr :=
  (s.cs.queue.filter s.guardDue).map (.guardPassed ·.output) ++
    (s.cs.queue.filter s.waitDue).map (.waitLimitExpiry ·.output)

/-- The end of the phase an output is in (R16, R18, R19, R93, R94). -/
def duePhase (s : State) (n : Out) : Option Instr :=
  let c := s.ch n
  match c.state, c.train with
  | .power, none => if s.phaseOver n .power then some (.powerEnd n) else none
  | .power, some _ => if s.phaseOver n .power then some (.trainPulseEnd n) else none
  | .hold, _ => if s.phaseOver n .hold then some (.maxHoldExpiry n) else none
  | .cool, none => if s.phaseOver n .cool then some (.coolEnd n) else none
  | .cool, some _ => if s.phaseOver n .cool then some (.burstCoolEnd n) else none
  | .gap, some tr => match tr.burst with
    | some b => if reached s.tick b.nextStart then some (.burstPulseStart n) else none
    | none => none
  | _, _ => none

/-- The open check of an output in POWER is due (R21). -/
def dueCheck (s : State) (n : Out) : Option Instr :=
  match (s.ch n).checkDue with
  | some due =>
    if (s.ch n).state = .power ∧ reached s.tick due then some (.openCheckRequest n) else none
  | none => none

/-- Commands due for the coil outputs. -/
def dueCoils (s : State) : List Instr :=
  (List.finRange 16).filterMap (duePhase s) ++ (List.finRange 16).filterMap (dueCheck s)

/-- Commands due for the draw budget (R47, R51, R65). -/
def dueBudget (s : State) : List Instr :=
  (if s.db.table.any fun e => reached s.tick e.expiry then [.entryExpiry] else []) ++
    ((List.finRange 63).filter s.ageDue).map .ageingOut ++
    (if s.refreshDue then [.refreshExpiry] else [])

/-- Commands due for the switches (R103, R105). -/
def dueSwitches (s : State) : List Instr :=
  ((List.finRange 24).filter s.debounceDue).map .debounceEnd ++
    ((List.finRange 24).filter s.stuckDue).map .stuckEnd

/-- Commands due for a flipper (R77, R80, R81). -/
def dueFlipper (s : State) (f : Flip) : List Instr :=
  let r := s.fl.get f
  let held := decide (r.timed = false) && reached s.tick r.windowEnd &&
    decide (s.eosLevel f = some true)
  (if r.state = .power ∧ held then [.flipperWindowEnd f] else []) ++
    (if r.state = .power ∧ reached s.tick r.phaseEnd then [.flipperPowerEnd f] else []) ++
    (if r.state = .repower ∧ reached s.tick r.phaseEnd then [.repowerEnd f] else []) ++
    (if s.limitDue f then [.holdLimitEnd f] else [])

/-- Commands that fall at this tick by the tick count and the lamp position. -/
def dueFalling (s : State) : List Instr :=
  s.falling.filterMap fun
    | .supplySlot => some .supplySlot
    | .heatDecay => some .heatDecayPass
    | .window l => if s.sl.station = .run then some (.windowStart l) else none
    | .beatZero _ => some .beatPhaseZero

/-- The conversion that ends at this instant, with the level of its sense input (R30, R32, R35). -/
def dueConversion (s : State) : List Instr :=
  match s.sc.conv with
  | some ⟨.supply, 0⟩ => [.supplyReadingEnd s.lines.supplyRaw]
  | some ⟨.current n _, 0⟩ => [.currentConversionEnd (s.lines.currentRaw.get n)]
  | _ => []

/-- Commands due for the station state and the beat (R126, R179, R180). -/
def dueStation (s : State) : List Instr :=
  (if s.sl.station = .joining ∧ reached s.tick s.sl.joinEnd then [.joiningEnd] else []) ++
    (if s.sl.station = .unconfigured ∧ reached s.tick s.sl.statusDue then [.unconfiguredStatus]
      else []) ++
    (if s.beatLate then [.beatWithdraw] else [])

/-- Every command due at this instant. -/
def dueCommands (s : State) : List Instr :=
  dueFalling s ++ dueStation s ++ dueCoils s ++ dueEntries s ++ dueBudget s ++ dueSwitches s ++
    (List.finRange 4).flatMap (dueFlipper s) ++ dueConversion s

/-- What is due at this instant: a command, or (none) the link's bit. -/
def dueNow (s : State) : List (Option Instr) :=
  (if s.bitDue then [none] else []) ++ (dueCommands s).map some

/-! ### The passing of time -/

/-- What falls at a tick by the tick count (R31, R44), for a station that has slots and passes as the
tick begins: an acceptance or an entry to UNCONFIGURED at the very start of a tick gets none at that
tick. DESIGN CHOICE (log 32). -/
def fallingAt (s : State) (tick : Tick) : List Falling :=
  (if s.hasSlots ∧ tick.toNat % 10 = 0 then [.supplySlot] else []) ++
    (if s.viewing ∧ tick.toNat % 100 = 0 then [.heatDecay] else [])

/-- The lamps whose window starts at a position (R116). -/
def windowsAt (pos : Nat) : List Falling :=
  ((List.finRange 16).filter fun l => l.val % 15 = pos).map .window

/-- The beat timer advances by one tick (R124). -/
def Lamps.beatTick (lp : Lamps) : Lamps :=
  if lp.beatOn then
    if lp.phase = 319 then { lp with phase := 0, beat := lp.beat + 1 }
    else { lp with phase := lp.phase + 1 }
  else lp

/-- Phase 0 of a beat is reached by this tick (R125). -/
def Lamps.beatFalls (lp : Lamps) : List Falling :=
  if lp.beatOn ∧ lp.phase = 319 then [.beatZero (lp.beat + 1)] else []

/-- The lamp period position advances by one tick in RUN (R116). -/
def State.nextPos (s : State) : Nat :=
  if s.sl.station = .run then (s.lp.pos + 1) % 15 else s.lp.pos

/-- A tick begins (R1). The beat timer advances as the tick begins, so a BEAT that completes at that
instant is taken after the wrap, of which R127 lets either be first. DESIGN CHOICE (log 30). -/
def nextTick (s : State) : State :=
  let tick := s.tick + 1
  let pos := s.nextPos
  let windows := if s.sl.station = .run then windowsAt pos else []
  { s with
    tick := tick
    unit := 0
    falling := fallingAt s tick ++ windows ++ s.lp.beatFalls
    lp := { s.lp.beatTick with pos := pos } }

/-- A conversion runs on for 2 µs (R30). -/
def Sense.runOn (sc : Sense) : Sense :=
  { sc with conv := sc.conv.map fun c => { c with left := c.left - 1 } }

/-- A link bit falls at this 2 µs unit: every unit at 500 kbit/s, every other at 250 kbit/s, while
LC takes part or still drives (R130, R146, log 20). -/
def State.bitFalls (s : State) : Bool :=
  (s.lc.started || s.lc.overriding) && (s.lc.rate500 || decide (s.unit % 2 = 0))

/-- 2 µs pass; what came together at the instant before is over (R1, R16). -/
def passTime (s : State) : State :=
  let t := if Config.unitsPerTick ≤ s.unit + 1 then nextTick s else { s with unit := s.unit + 1 }
  { t with sc := t.sc.runOn, bitDue := t.bitFalls, powerEnded := [] }

/-- One due thing is taken: the link's bit, or a command put in the queue. -/
def takeDue (s : State) : Option Instr → State
  | none => linkBit s
  | some c => { s with pending := s.pending ++ [c] }

/-- The station's own time, where no command waits: one due thing is taken, in a free order where
several are due (FREE VALUE, log 2); where nothing is due, 2 µs pass. -/
def idle (s : State) : State :=
  match dueNow s with
  | [] => passTime s
  | [d] => takeDue s d
  | d :: rest =>
    let i := Config.freeOrder s.picks % (rest.length + 1)
    takeDue { s with picks := s.picks + 1 } ((d :: rest).getD i d)

end Sys2Proof.Machine
end

