-- ==== Sys2Proof/Machine/Dispatch.lean ====
section
/-!
DEFINITION. The dispatch: one arm for each command.
-/
namespace Sys2Proof.Machine

/-- What a command does to everything but the queue. -/
def exec (i : Instr) (s : State) : Host.Outcome State Fault Refusal :=
  match i with
  | .powerOnReset lineHigh straps => Sys2Proof.Machine.execPowerOnReset lineHigh straps s
  | .resetLineAssert => Sys2Proof.Machine.execResetLineAssert s
  | .resetLineRelease straps => Sys2Proof.Machine.execResetLineRelease straps s
  | .imageCheck image => Sys2Proof.Machine.execImageCheck image s
  | .joiningEnd => Sys2Proof.Machine.execJoiningEnd s
  | .unconfiguredStatus => Sys2Proof.Machine.execUnconfiguredStatus s
  | .fire f => Sys2Proof.Machine.execFire f s
  | .hold f => Sys2Proof.Machine.execHold f s
  | .release f => Sys2Proof.Machine.execRelease f s
  | .train f => Sys2Proof.Machine.execTrain f s
  | .trainStop f => Sys2Proof.Machine.execTrainStop f s
  | .lamp f => Sys2Proof.Machine.execLamp f s
  | .clear f => Sys2Proof.Machine.execClear f s
  | .query f => Sys2Proof.Machine.execQuery f s
  | .guardPassed n => Sys2Proof.Machine.execGuardPassed n s
  | .waitLimitExpiry n => Sys2Proof.Machine.execWaitLimitExpiry n s
  | .frameOffer => Sys2Proof.Machine.execFrameOffer s
  | .arbitrationLost => Sys2Proof.Machine.execArbitrationLost s
  | .ownFrameComplete => Sys2Proof.Machine.execOwnFrameComplete s
  | .transmitError kind found => Sys2Proof.Machine.execTransmitError kind found s
  | .receiveError kind => Sys2Proof.Machine.execReceiveError kind s
  | .recoveryComplete => Sys2Proof.Machine.execRecoveryComplete s
  | .stopPattern => Sys2Proof.Machine.execStopPattern s
  | .stopPatternEnd => Sys2Proof.Machine.execStopPatternEnd s
  | .claimHeard f => Sys2Proof.Machine.execClaimHeard f s
  | .standingHeard f => Sys2Proof.Machine.execStandingHeard f s
  | .heardFrame kind f => Sys2Proof.Machine.execHeardFrame kind f s
  | .beatReceived f sofPhase sofBeat => Sys2Proof.Machine.execBeatReceived f sofPhase sofBeat s
  | .tiltReceived f => Sys2Proof.Machine.execTiltReceived f s
  | .gameReceived f => Sys2Proof.Machine.execGameReceived f s
  | .eventReceived f => Sys2Proof.Machine.execEventReceived f s
  | .powerEnd n => Sys2Proof.Machine.execPowerEnd n s
  | .maxHoldExpiry n => Sys2Proof.Machine.execMaxHoldExpiry n s
  | .coolEnd n => Sys2Proof.Machine.execCoolEnd n s
  | .trainPulseEnd n => Sys2Proof.Machine.execTrainPulseEnd n s
  | .burstPulseStart n => Sys2Proof.Machine.execBurstPulseStart n s
  | .burstCoolEnd n => Sys2Proof.Machine.execBurstCoolEnd n s
  | .openCheckRequest n => Sys2Proof.Machine.execOpenCheckRequest n s
  | .currentConversionEnd raw => Sys2Proof.Machine.execCurrentConversionEnd raw s
  | .supplySlot => Sys2Proof.Machine.execSupplySlot s
  | .supplyReadingEnd raw => Sys2Proof.Machine.execSupplyReadingEnd raw s
  | .fastTrip n current => Sys2Proof.Machine.execFastTrip n current s
  | .flipperTrip n current partner => Sys2Proof.Machine.execFlipperTrip n current partner s
  | .heatDecayPass => Sys2Proof.Machine.execHeatDecayPass s
  | .entryExpiry => Sys2Proof.Machine.execEntryExpiry s
  | .ageingOut station => Sys2Proof.Machine.execAgeingOut station s
  | .refreshExpiry => Sys2Proof.Machine.execRefreshExpiry s
  | .rawChange sw high => Sys2Proof.Machine.execRawChange sw high s
  | .debounceEnd sw => Sys2Proof.Machine.execDebounceEnd sw s
  | .stuckEnd sw => Sys2Proof.Machine.execStuckEnd sw s
  | .flipperWindowEnd f => Sys2Proof.Machine.execFlipperWindowEnd f s
  | .flipperPowerEnd f => Sys2Proof.Machine.execFlipperPowerEnd f s
  | .repowerEnd f => Sys2Proof.Machine.execRepowerEnd f s
  | .holdLimitEnd f => Sys2Proof.Machine.execHoldLimitEnd f s
  | .windowStart l => Sys2Proof.Machine.execWindowStart l s
  | .beatPhaseZero => Sys2Proof.Machine.execBeatPhaseZero s
  | .beatWithdraw => Sys2Proof.Machine.execBeatWithdraw s
  | .integratingEnd => Sys2Proof.Machine.execIntegratingEnd s

end Sys2Proof.Machine
end

