-- ==== Sys2Proof/Machine/Step.lean ====
section
/-!
DEFINITION. One step of the station: the command at the front of the queue, or the station's own
time.
-/
namespace Sys2Proof.Machine

/-- One step. With a command waiting, its meaning on the station with the rest of the queue; with
none, the station's own time (log 1). -/
def step (s : State) : Host.Outcome State Fault Refusal :=
  match s.pending with
  | c :: rest => exec c { s with pending := rest }
  | [] => .next (idle s)

/-- The station with the command a word spells at the front of its queue; unchanged where the word
spells none. -/
def State.withFetchWord (s : State) (nbits w : Nat) : State :=
  match decodeTableWord nbits w with
  | some c => { s with pending := c :: s.pending }
  | none => s

end Sys2Proof.Machine
end

