-- ==== Sys2Proof/Machine/Outputs.lean ====
section
/-!
DEFINITION. What the station drives: coil gates (R5, R74), lamp gates (R116), the serial memory's
lines (R178). Read from the records.
-/
namespace Sys2Proof.Machine

/-- A gate modulated at `duty` of 16 ticks, the first period beginning at `since` (R5, R74). -/
def modulated (now since : Tick) (duty : Nat) : Bool := decide (age now since % 16 < duty)

/-- Duty of the held gate of a flipper (R74, R81): `none` is on. -/
def heldDuty (st : FlipSettings) (reduced : Bool) : Option Nat :=
  if st.hold.isSome then if reduced then some 8 else none
  else some (if reduced then max 1 (st.duty / 2) else st.duty)

/-- The gate of a flipper output (Table 4-4). -/
def flipperGate (s : State) (f : Flip) (n : Out) : Bool :=
  let st := s.cfg.flippers.get f
  let r := s.fl.get f
  match r.state with
  | .rest => false
  | .power => true
  | .repower => true
  | .hold =>
    if st.hold.isSome ∧ st.hold ≠ some n then false
    else match heldDuty st r.reduced with
      | some d => modulated s.tick r.periodStart d
      | none => true

/-- The gate of a coil output (R5, R74): off outside RUN. -/
def coilGate (s : State) (n : Out) : Bool :=
  if s.sl.station = .run then
    match (s.ch n).state with
    | .power => true
    | .hold => modulated s.tick (s.ch n).holdStart (s.prof n).duty
    | .flipper => match s.cfg.flipperOf n with
      | some f => flipperGate s f n
      | none => false
    | _ => false
  else false

/-- Ticks since the window start of a lamp (R116). -/
def sinceWindow (pos : Nat) (l : Lamp) : Nat := (pos + 15 - l.val % 15) % 15

/-- The gate of a lamp output (R116): off outside RUN. -/
def lampGate (s : State) (l : Lamp) : Bool :=
  decide (s.sl.station = .run) && decide (sinceWindow s.lp.pos l < (s.lp.lamps.get l).duty)

/-! ### The serial memory (R178, log 21) -/

/-- SL has the serial memory selected: in LOADING (R178). -/
def memorySelected (s : State) : Bool := decide (s.sl.station = .loading)

/-- What SL sends to the serial memory: a read instruction of value 3 and two address bytes of 0
(R178). -/
def memoryCommand : List Byte := [3, 0, 0]

/-- How many bytes SL clocks in, from address 0: none beyond those a failed check 1 or 2 looks at
(R178). -/
def bytesClocked (image : List Byte) : Nat :=
  let image := clocked 993 image
  if rByte image 0 ≠ 1 then 1 else if rWord image 1 ≠ 993 then 3 else 993

end Sys2Proof.Machine
end

