-- ==== Sys2Proof/Safety.lean ====
section
/-!
DEFINITION. Runs of steps, what a step keeps, and what the manual says of the station's tables at
every instant.
-/
namespace Sys2Proof.Machine

/-- The state after `n` steps; none once a step faults or refuses. -/
def runSteps : Nat → State → Option State
  | 0, s => some s
  | n + 1, s => match step s with
    | .next t => runSteps n t
    | _ => none

/-- A command answers a next state. -/
def Answers (c : Instr) (s : State) : Prop := ∃ t, exec c s = .next t

/-- The second state differs from the first in the coil sequencer, the draw budget unit and the link
controller alone. -/
def CoilWork (s t : State) : Prop := t = { s with cs := t.cs, db := t.db, lc := t.lc }

/-- A property that every step keeps. -/
def Kept (inv : State → Prop) : Prop := ∀ s t, inv s → step s = .next t → inv t

/-! ### What holds at every instant -/

/-- The bounds the manual gives the tables and counts: 24 draw-table entries (R46), 8 outgoing
frames (R149), TEC and REC to 255 (R155), the counters of 16 bits (R25, R58, R105, R154, R169,
R170), each output's heat, consecutive-open and hold-timeout counts (Table 1-7), the beat phase of 320
ticks (R124) and the lamp period of 15 (R116). -/
def Bounded (s : State) : Prop :=
  s.db.table.length ≤ 24 ∧ s.lc.outq.length ≤ 8 ∧ s.lc.TEC ≤ 255 ∧ s.lc.REC ≤ 255 ∧
    s.cs.busyDrop ≤ 65535 ∧ s.cs.waitDrop ≤ 65535 ∧ s.cs.unchecked ≤ 65535 ∧
    s.db.deny ≤ 65535 ∧ s.sw.stuckCount ≤ 65535 ∧ s.lc.txDrop ≤ 65535 ∧
    s.er.unmatched ≤ 65535 ∧ s.er.badCommand ≤ 65535 ∧ s.pc.tiltDrop ≤ 65535 ∧
    (∀ n, (s.ch n).heat ≤ 65535 ∧ (s.ch n).openCount ≤ 3 ∧ (s.ch n).holdTimeouts ≤ 255) ∧
    s.lp.phase ≤ 319 ∧ s.lp.pos ≤ 14

/-- The pending queue holds at most 16 entries, one for each output in QUEUED and no other, each of
its output's class, in ascending class order (R9). -/
def QueueSound (s : State) : Prop :=
  s.cs.queue.length ≤ 16 ∧ (s.cs.queue.map (·.output)).Nodup ∧
    (∀ n, (s.ch n).state = .queued ↔ ∃ e ∈ s.cs.queue, e.output = n) ∧
    (∀ e ∈ s.cs.queue, e.cls = (s.prof e.output).cls) ∧
    s.cs.queue.Pairwise fun a b => a.cls ≤ b.cls

/-- An entry is in flight exactly where the claim in flight is for its output and not withdrawn
(R12, R13, R63). -/
def FlightSound (s : State) : Prop :=
  (∀ e ∈ s.cs.queue, e.inFlight = true →
    ∃ c, s.db.claim = some c ∧ c.output = e.output ∧ c.withdrawn = false) ∧
  ∀ c, s.db.claim = some c → c.withdrawn = false →
    ∃ e ∈ s.cs.queue, e.output = c.output ∧ e.inFlight = true

/-- No pulse, hold, entry or owed work is allowed an output of class `cls`: the station is stopped, or
the play state disables the class (R171, R173, R175, Table 11-2). -/
def Closed (s : State) (cls : Nat) : Prop :=
  s.pc.stopped = true ∨ s.pc.state = .tilt ∧ cls ≤ 1 ∨ s.pc.state = .slam ∧ cls ≤ 2

/-- An output owes at most its repeat depth (R7); one that CS does not drive is OFF, FLIPPER or in
FAULT, and one that it drives is not FLIPPER (R3); one in FAULT owes nothing (R23); a CS output of a
closed class is OFF, in COOL or in FAULT, and owes nothing (R173, R175). -/
def OutputSound (s : State) (n : Out) : Prop :=
  (s.ch n).repeats ≤ (s.prof n).depth ∧
    ((s.prof n).mode.isCS = false →
      (s.ch n).state = .off ∨ (s.ch n).state = .flipper ∨ (s.ch n).state = .fault) ∧
    ((s.prof n).mode.isCS = true → (s.ch n).state ≠ .flipper) ∧
    ((s.ch n).state = .fault → (s.ch n).repeats = 0 ∧ (s.ch n).train = none) ∧
    ((s.prof n).mode.isCS = true → Closed s (s.prof n).cls →
      ((s.ch n).state = .off ∨ (s.ch n).state = .cool ∨ (s.ch n).state = .fault) ∧
        (s.ch n).repeats = 0 ∧ (s.ch n).train = none)

/-- Outside PLAY, and while stopped, every flipper is in REST (R83, R175). -/
def FlippersSound (s : State) : Prop :=
  s.pc.state ≠ .play ∨ s.pc.stopped = true → ∀ f, (s.fl.get f).state = .rest

/-- A record that is not present holds draw 0 (R49), and every record does before JOINING (R70, R71);
from LOADING on, the own record is present, and the station's number is 0 to 62 (R49, R177). -/
def RecordsSound (s : State) : Prop :=
  (∀ i, (s.db.standing.get i).present = false ∨ s.viewing = false →
    (s.db.standing.get i).draw = 0) ∧
    (s.sl.station = .loading ∨ s.sl.station = .joining ∨ s.sl.station = .run →
      ∃ i : Fin 63, s.own.toNat = i.val ∧ (s.db.standing.get i).present = true)

/-- The own record holds the sum of the hold draws of the CS outputs in HOLD (R64). -/
def StandingSound (s : State) : Prop :=
  ∀ i : Fin 63, s.own.toNat = i.val → (s.db.standing.get i).draw =
    min 4095 ((List.finRange 16).map fun n =>
      if (s.ch n).state = .hold ∧ (s.prof n).mode.isCS = true then (s.ch n).holdDraw else 0).sum

/-- Outside RUN nothing is under way at the coils, flippers and play control (R4, R75, R112, R170,
R179, R180). -/
def RestSound (s : State) : Prop :=
  s.sl.station ≠ .run →
    s.cs.queue = [] ∧ s.db.claim = none ∧ s.pc.state = .idle ∧ s.pc.stopped = false ∧
      ∀ n, ((s.ch n).state = .off ∨ (s.ch n).state = .flipper) ∧ (s.ch n).repeats = 0 ∧
        (s.ch n).train = none

/-- Outside JOINING and RUN no image is in force: the settings are blank, the supply offset 0 (R32, R178,
R180, log 28). -/
def SettingsSound (s : State) : Prop := s.viewing = false → s.cfg = .blank

/-- What the manual says of outputs, queue, claim, flippers, own record and settings at every instant. -/
def CoilsSound (s : State) : Prop :=
  QueueSound s ∧ FlightSound s ∧ (∀ n, OutputSound s n) ∧ FlippersSound s ∧ RecordsSound s ∧
    StandingSound s ∧ RestSound s ∧ SettingsSound s

/-- Slot 0 is empty exactly while the claim in flight is clear (R56); it holds a CLAIM alone, slot 1 a
BEAT alone, and the shared slots and the queue neither (R147, R148). -/
def SlotsSound (s : State) : Prop :=
  (s.db.claim = none ↔ s.lc.slots.get 0 = none) ∧
    (∀ sl ∈ s.lc.slots.get 0, sl.frame.kind = 3) ∧ (∀ sl ∈ s.lc.slots.get 1, sl.frame.kind = 0) ∧
    (∀ i : Fin 4, 2 ≤ i.val → ∀ sl ∈ s.lc.slots.get i, sl.frame.kind ≠ 0 ∧ sl.frame.kind ≠ 3) ∧
    ∀ f ∈ s.lc.outq, f.kind ≠ 0 ∧ f.kind ≠ 3

end Sys2Proof.Machine
end

