-- ==== Sys2Proof/Certificates/Slice0/Obligations.lean ====
section
/-!
DEFINITION. The statements about the model: for each command, the state it answers and what it
leaves; the invariants that every step keeps. `Pre.…` names the hypotheses of a statement, on the
state and the operands alone. The functions defined here are the manual's rules written out again,
for the statements to hold the model to.
-/
namespace Sys2Proof.Machine

/-! ### Words the statements share: frames and counts -/

/-- The row of a command frame, by its kind (Table 8-2). -/
def commandRow : CommandKind → Heard → Instr
  | .fire, f => .fire f
  | .hold, f => .hold f
  | .release, f => .release f
  | .train, f => .train f
  | .trainStop, f => .trainStop f
  | .lamp, f => .lamp f
  | .clear, f => .clear f
  | .query, f => .query f

/-- The station after a frame of station `f.source` reached completion here: the bus phase is
INTERFRAME, REC is lowered by one, and the source's record is heard (R50, R137, R155). What it is,
`HeardFramesRenewTheirSource` states. -/
abbrev heard (s : State) (f : Heard) : State := received s f.source

/-- One busy-drop more (R25). -/
def busyCounted (s : State) : State := { s with cs.busyDrop := min 65535 (s.cs.busyDrop + 1) }

/-- A count as two bytes of a frame (R182). -/
def twoBytes (n : Nat) : List Byte := [byte (n / 256), byte n]

/-- A STANDING frame of this station (R65). -/
def standingOf (s : State) (draw : Nat) : Frame := ⟨4, 4, s.own, twoBytes draw⟩

/-- The link state decided anew from TEC and REC (R156): SILENT is left by recovery alone. -/
def linkStateAt (before : LinkState) (tec rec : Nat) : LinkState :=
  if before = .silent ∨ 192 ≤ tec then .silent
  else if 96 ≤ tec ∨ 96 ≤ rec then .passive
  else .active

/-- The station number is that of record i (R49, R177). -/
abbrev Pre.number (straps : BitVec 6) (i : Fin 63) : Prop := straps.toNat = i.val

/-- The frames at the head of the outgoing queue move into the empty shared slots, slot 2 first
(R149). -/
def advanced (lc : Link) : Link :=
  match lc.slots.get 2, lc.slots.get 3, lc.outq with
  | none, none, f :: g :: rest =>
    { lc with
      slots := (lc.slots.set 2 (some ⟨f, false, 0⟩)).set 3 (some ⟨g, false, 0⟩), outq := rest }
  | none, _, f :: rest => { lc with slots := lc.slots.set 2 (some ⟨f, false, 0⟩), outq := rest }
  | some _, none, f :: rest => { lc with slots := lc.slots.set 3 (some ⟨f, false, 0⟩), outq := rest }
  | _, _, _ => lc

/-! ### The view and its tests (Chapter 3) -/

/-- The ceiling in force for a class (R54, R67). -/
def ceilingOf (s : State) (cls : Nat) : Nat :=
  if s.isolated then s.cfg.station.soloS
  else if cls = 1 then s.cfg.station.limL - s.cfg.station.resF
  else if cls = 2 then (s.cfg.station.limL - s.cfg.station.resF) * 3 / 4
  else (s.cfg.station.limL - s.cfg.station.resF) / 2

/-- The budget test of R55. -/
abbrev Passes (total d ceiling : Nat) : Prop := total + d ≤ ceiling ∨ ceiling < d ∧ total = 0

/-- The sum of all draw-table draws and of the standing draws of the present records (R52). -/
def viewOf (s : State) : Nat :=
  min 65535 ((s.db.table.map (·.draw)).sum +
    ((List.finRange 63).map fun i =>
      if (s.db.standing.get i).present then (s.db.standing.get i).draw else 0).sum)

/-! ### Selection (R9–R12, R56, R91) -/

/-- A class is disabled by the play state (Table 11-2). -/
abbrev ClassOff (p : PlayState) (cls : Nat) : Prop := p = .tilt ∧ cls ≤ 1 ∨ p = .slam ∧ cls ≤ 2

/-- k halved, each halving rounded down, until k fits or is 1, comes to k' (R10, R42). -/
def Halved (fits : Nat → Prop) (k k' : Nat) : Prop :=
  ∃ i, k' = k / 2 ^ i ∧ (fits k' ∨ k' ≤ 1) ∧ ∀ j, j < i → ¬ fits (k / 2 ^ j) ∧ 1 < k / 2 ^ j

/-- The heat test of a pulse, or of a burst of k pulses, of power time t (R10). -/
def HeatPasses (heat limit k t : Nat) : Prop :=
  ∃ k', Halved (fun j => j * t ≤ limit) k k' ∧
    (heat + k' * t ≤ limit ∨ limit < k' * t ∧ heat = 0)

/-- The pulses an entry offers as its train record stands; 1 for a SINGLE entry (R91). -/
def pulsesOf (s : State) (e : Entry) : Nat :=
  match e.burst, (s.ch e.output).train with
  | true, some tr => if tr.free then tr.size else min tr.size tr.remaining
  | _, _ => 1

/-- The power time of an entry at the present supply reading (R40, R41). -/
def timeOf (s : State) (e : Entry) : Nat :=
  stretch (e.override.getD (s.prof e.output).base) s.cfg.station.vnom s.sc.supply

/-- The draw of an entry at the present supply reading (R38). -/
def drawNow (s : State) (e : Entry) : Nat :=
  drawOf (s.prof e.output).res s.cfg.station.vnom s.sc.supply

/-- An entry is eligible (R10). -/
def Eligible (s : State) (e : Entry) : Prop :=
  s.pc.stopped = false ∧ ¬ ClassOff s.pc.state e.cls ∧ s.sc.supplyState = .normal ∧
    e.waits = false ∧ e.inFlight = false ∧
    HeatPasses (s.ch e.output).heat (s.prof e.output).heatLimit (pulsesOf s e) (timeOf s e) ∧
    Passes s.db.viewTotal (drawNow s e) (ceilingOf s e.cls)

/-- An entry is the first eligible one in queue order, and no entry ahead of it has passed its skip
guard (R11, R12). -/
def Chosen (s : State) (e : Entry) : Prop :=
  ∃ ahead behind, s.cs.queue = ahead ++ e :: behind ∧ Eligible s e ∧
    ∀ x ∈ ahead, ¬ Eligible s x ∧ x.guard = false

/-- A claim carries the figures fixed at the selection of an entry (R12, R42, R56, R91). -/
def FixedAt (s : State) (e : Entry) (c : Claim) : Prop :=
  c.output = e.output ∧ c.cls = e.cls ∧ c.draw = drawNow s e ∧ c.t = timeOf s e ∧
    c.withdrawn = false ∧
    (e.burst = false ∨ (s.ch e.output).train = none → c.burst = none ∧ c.duration = c.t) ∧
    (∀ tr, e.burst = true → (s.ch e.output).train = some tr →
      ∃ k₁ k, let period := max tr.period (c.t + (s.prof e.output).cool)
        Halved (fun j => (j - 1) * period + c.t ≤ 65535) (pulsesOf s e) k₁ ∧
        Halved (fun j => j * c.t ≤ (s.prof e.output).heatLimit) k₁ k ∧
        c.burst = some (k, period) ∧ c.duration = (k - 1) * period + c.t)

/-- The claim made in NORMAL mode: the entry in flight, the figures with the output, the claim
recorded, its CLAIM frame WAITING in slot 0 (R12, R56). -/
def claimMade (s : State) (c : Claim) : State :=
  { s with
    cs := { s.cs with
      queue := s.cs.queue.map fun e => if e.output = c.output then { e with inFlight := true } else e
      chan := s.cs.chan.set c.output { s.ch c.output with t := c.t, draw := c.draw } }
    db := { s.db with claim := some c }
    lc := { s.lc with slots := s.lc.slots.set 0 (some
      ⟨⟨BitVec.ofNat 3 c.cls, 3, s.own,
        byte c.output.val :: (twoBytes c.draw ++ twoBytes c.duration)⟩, false, 0⟩) } }

/-- The channel at the grant of a claim: POWER for t from tick `at_`, the figures kept, the heat
raised, the open check scheduled; of a train, remaining lowered and the first pulse of the burst
started (R15, R21, R43, R92, R93). -/
def pulsed (ch : Channel) (c : Claim) (at_ : Tick) : Channel :=
  { ch with
    state := .power
    t := c.t
    draw := c.draw
    phaseEnd := at_ + BitVec.ofNat 32 c.t
    powerStart := at_
    heat := min 65535 (ch.heat + c.t)
    checkDue := some (if c.t ≤ 2 then at_ else at_ + BitVec.ofNat 32 (c.t - 2))
    train := match c.burst, ch.train with
      | some (k, period), some tr => some { tr with
          remaining := if tr.free then tr.remaining else tr.remaining - k
          burst := some ⟨k, period, c.t, 1, at_⟩
          fired := if tr.fired < 65535 then tr.fired + 1 else if tr.free then 0 else 65535
          wrap := if tr.free = true ∧ 65535 ≤ tr.fired then true else tr.wrap }
      | _, _ => ch.train }

/-- The station after the claim in flight was decided at tick `at_` (R13, R58, R63, R68): a pass adds
the entry to the view and, unless the claim was withdrawn, grants it; a failure counts a deny and
parks the entry, unless it was withdrawn. -/
def afterDecision (s : State) (c : Claim) (at_ : Tick) : State :=
  let entry : DrawEntry :=
    ⟨s.own, c.output, c.draw, at_ + BitVec.ofNat 32 c.duration, c.withdrawn⟩
  if Passes s.db.viewTotal c.draw (ceilingOf s c.cls) then
    { s with
      db := { s.db with claim := none, table := addEntry s.tick entry s.db.table }
      cs := if c.withdrawn then s.cs else
        { s.cs with
          queue := s.cs.queue.filter (·.output ≠ c.output)
          chan := s.cs.chan.set c.output (pulsed (s.ch c.output) c at_) } }
  else if c.withdrawn then { s with db := { s.db with claim := none } }
  else
    { s with
      db := { s.db with claim := none, deny := min 65535 (s.db.deny + 1) }
      cs := { s.cs with queue := s.cs.queue.map fun e =>
        if e.output = c.output then { e with inFlight := false, waits := true } else e } }

/-- A view decrease: no entry waits for one, and a selection follows (R53). -/
def decreased (s : State) : State :=
  select { s with cs := { s.cs with queue := s.cs.queue.map fun e => { e with waits := false } } }

/-! ### The own standing draw (R64, R65) -/

/-- The sum of the hold draws of the CS outputs in HOLD (R64). -/
def holdTotal (s : State) : Nat :=
  min 4095 ((List.finRange 16).map fun n =>
    if (s.ch n).state = .hold ∧ (s.prof n).mode.isCS = true then (s.ch n).holdDraw else 0).sum

/-- A change of the own standing draw is announced in RUN and NORMAL (R65). -/
def announced (s : State) (draw : Nat) : State :=
  if s.sl.station = .run ∧ s.isolated = false then
    { s with
      lc := s.lc.hand (standingOf s draw)
      db := { s.db with refresh := some (s.tick + 2000) } }
  else s

/-- The own standing draw, in record i, computed again after an output entered or left HOLD: a change
is written and announced, and a fall is a view decrease (R53, R64, R65). -/
def restood (s : State) (i : Fin 63) : State :=
  let t := announced { s with db := { s.db with
    standing := s.db.standing.set i { s.db.standing.get i with draw := holdTotal s } } } (holdTotal s)
  if holdTotal s = (s.db.standing.get i).draw then s
  else if holdTotal s < (s.db.standing.get i).draw then decreased t
  else t

/-! ### Queue and faults -/

/-- A new entry of output n, made at this tick (R9). -/
def newEntry (s : State) (n : Out) (burst : Bool) (override : Option Nat) : Entry where
  output := n
  cls := (s.prof n).cls
  arrival := s.tick
  burst := burst
  waits := false
  inFlight := false
  guard := false
  override := override

/-- Output n goes to QUEUED with a new entry (R6, R9). -/
def queuedWith (s : State) (n : Out) (burst : Bool) (override : Option Nat) : State :=
  { s with cs := { s.cs with
      chan := s.cs.chan.set n { s.ch n with state := .queued }
      queue := insertEntry (newEntry s n burst override) s.cs.queue } }

/-- The claim in flight for output n is withdrawn: WAITING, its frame leaves slot 0 and the claim is
clear; ON WIRE, its withdrawn flag is set (R63). -/
def withdrawnFor (s : State) (n : Out) : State :=
  match s.db.claim with
  | some c =>
    if c.output = n then
      match s.lc.slots.get 0 with
      | some ⟨_, true, _⟩ => { s with db := { s.db with claim := some { c with withdrawn := true } } }
      | some ⟨_, false, _⟩ =>
        { s with
          db := { s.db with claim := none }
          lc := { s.lc with slots := s.lc.slots.set 0 none } }
      | none => { s with db := { s.db with claim := none } }
    else s
  | none => s

/-- The entry of output n leaves the queue without a grant, and a claim in flight for it is withdrawn
(R9, R13, R63). -/
def unqueued (s : State) (n : Out) : State :=
  withdrawnFor { s with cs := { s.cs with queue := s.cs.queue.filter (·.output ≠ n) } } n

/-- The channel of output n replaced. -/
def withChan (s : State) (n : Out) (c : Channel) : State :=
  { s with cs := { s.cs with chan := s.cs.chan.set n c } }

/-- A channel in COOL until `cool` ticks after `now`, its gate off (R19). -/
def cooled (now : Tick) (cool : Nat) (c : Channel) : Channel :=
  { c with state := .cool, holdDraw := 0, checkDue := none, phaseEnd := now + BitVec.ofNat 32 cool }

/-- A channel in HOLD from now, at the hold draw of the pulse just ended, its max-hold timer started
(R17, R39). -/
def inHold (s : State) (n : Out) (c : Channel) : Channel :=
  { c with
    state := .hold
    holdStart := s.tick
    holdDraw := ceilDiv (c.draw * (s.prof n).duty) 16
    checkDue := none
    phaseEnd := s.tick + BitVec.ofNat 32 (10 * (s.prof n).maxHold) }

/-- POWER of a single pulse of output n ran out at this instant: of a PULSE_HOLD output that is kept to the
end of the instant, for a HOLD that comes together with it (R16, log 44). -/
def powerOver (s : State) (n : Out) : State :=
  if (s.prof n).mode = .pulseHold then { s with powerEnded := n :: s.powerEnded } else s

/-- A channel in OFF. -/
def offed (c : Channel) : Channel := { c with state := .off, holdDraw := 0, checkDue := none }

/-- The done report of a train: switch field 255, edge close, the done code, priority the output's
class (R99). -/
def doneReport (s : State) (n : Out) (code : Byte) : Frame :=
  ⟨BitVec.ofNat 3 (s.prof n).cls, 8, s.own, [255, 1, code]⟩

/-- A train that ends gracefully: its record discarded, the output OFF, its done report handed where it
has a done code (R99). -/
def trainEnded (s : State) (n : Out) (tr : Train) : State :=
  let t := withChan s n (offed { s.ch n with train := none })
  match tr.done with
  | some code => { t with lc := t.lc.hand (doneReport s n code) }
  | none => t

/-- COOL of output n ends (R19, R94, R99). Without a train: OFF with hold-wanted cleared where no pulse is
owed, else QUEUED again with one pulse less owed. With one: the train ends where it was stopped or nothing
remains, else its next burst is queued. A selection follows an entry. -/
def coolEnded (s : State) (n : Out) : State :=
  match (s.ch n).train with
  | none =>
    if (s.ch n).repeats = 0 then s.updCh n fun c => offed { c with holdWanted := false }
    else select (queuedWith (withChan s n { s.ch n with repeats := (s.ch n).repeats - 1 }) n false
      none)
  | some tr =>
    if tr.stopRequested = true ∨ tr.free = false ∧ tr.remaining = 0 then trainEnded s n tr
    else select (queuedWith (withChan s n { s.ch n with train := some { tr with burst := none } }) n
      true none)

/-- With a cool time of 0, COOL ends at the instant it is entered (R19). -/
def coolIfOver (s : State) (n : Out) : State := if (s.prof n).cool = 0 then coolEnded s n else s

/-- Output n, its channel being `c`, enters COOL (R19). -/
def coolEntered (s : State) (n : Out) (c : Channel) : State :=
  coolIfOver (withChan s n (cooled s.tick (s.prof n).cool c)) n

/-- A channel in FAULT: its work discarded, heat and repeat-overflow kept (R23). -/
def inFault (kind : FaultKind) (c : Channel) : Channel :=
  { c with
    state := .fault, faultKind := kind, repeats := 0, holdWanted := false, train := none
    holdDraw := 0, checkDue := none }

/-- Output n of station number i enters FAULT (R20, R23): its entry and claim are taken away, a FAULT
NOTICE is handed, and its hold draw leaves the own standing draw. The notice before the STANDING frame
is the model's choice (log 33). -/
def faultTaken (s : State) (i : Fin 63) (n : Out) (kind : FaultKind) (code : Byte) : State :=
  let t := unqueued (withChan s n (inFault kind (s.ch n))) n
  restood { t with lc := t.lc.hand ⟨4, 5, s.own, [byte n.val, code]⟩ } i

/-- A command frame addressed here, in RUN, that carries command `c` (R161, R162). -/
abbrev Pre.takes (s : State) (k : CommandKind) (f : Heard) (c : Command) : Prop :=
  s.canReceive = true ∧ s.sl.station = .run ∧ addressed s.own f.payload = true ∧
    readCommand s.cfg k f.payload = some c

/-- A coil request that reaches CS, whose class is enabled on a station that is not stopped (R4). -/
abbrev Pre.coil (s : State) (k : CommandKind) (f : Heard) (n : Out) (r : Request) : Prop :=
  Pre.takes s k f (.coil n r) ∧ s.pc.stopped = false ∧ ¬ ClassOff s.pc.state (s.prof n).cls

/-- A channel that is busy without a train (Table 1-9). -/
abbrev Pre.busy (c : Channel) : Prop :=
  (c.state = .queued ∨ c.state = .power ∨ c.state = .hold ∨ c.state = .cool) ∧ c.train = none

/-- A channel with a train record, and that record (Table 5-1). -/
abbrev Pre.inTrain (c : Channel) (tr : Train) : Prop :=
  (c.state = .queued ∨ c.state = .power ∨ c.state = .gap ∨ c.state = .cool) ∧ c.train = some tr

end Sys2Proof.Machine

open Sys2Proof Sys2Proof.Machine

/-! ### The queue of commands and the invariants -/

/-- A step with a command at the front of the queue runs that command on the rest of the queue. That
the station's events are commands in a queue, taken from its front one at a time, is the model's choice
(log 1, log 31). -/
def Obligations.StepRunsTheFrontCommand : Prop :=
  ∀ (c : Instr) (rest : List Instr) (s : State),
    step { s with pending := c :: rest } = exec c { s with pending := rest }

namespace Sys2Proof.Machine

/-- A command that resets the station (R177). -/
def Resets : Instr → Prop
  | .powerOnReset _ _ => True
  | .resetLineAssert => True
  | _ => False

end Sys2Proof.Machine

/-- The invariants that the next three statements name hold right after reset: the bounds, what is said
of outputs, queue, claim and own record, and what is said of the transmit slots. -/
def Obligations.InvariantsHoldAtReset : Prop :=
  Bounded State.reset ∧ CoilsSound State.reset ∧ SlotsSound State.reset

/-- Every step keeps the bounds of the draw table, the outgoing queue, the counters and each output's
counts (`Bounded`). The bound of the pending queue is in `EveryStepKeepsTheCoilsSound`. -/
def Obligations.EveryStepKeepsTheBounds : Prop := Kept Bounded

/-- Every step keeps these: the pending queue has one entry for each output in QUEUED and no other, at
most 16, in class order (R9); an entry is in flight exactly while its claim is (R12, R63); an output owes
at most its repeat depth (R7), and nothing in FAULT (R23); one that CS does not drive is OFF, FLIPPER or in
FAULT, one that it drives is never FLIPPER (R3); while stopped, and in TILT and SLAM, no CS output of a
disabled class is in QUEUED, POWER, HOLD or GAP, and outside PLAY every flipper, class 0, is in REST (R83,
R171, R173, R175); a record that is not present holds draw 0, as every record does outside JOINING and RUN
(R49, R70); the own record holds the sum of the hold draws (R64); outside RUN nothing is under way; outside
JOINING and RUN the settings are blank, the supply offset 0 among them, which the model reads from the
manual (DEDUCED, log 28). -/
def Obligations.EveryStepKeepsTheCoilsSound : Prop := Kept CoilsSound

/-- Every step keeps slot 0 empty exactly while the claim in flight is clear, and each slot to its own
kinds of frame (R56, R147, R148). -/
def Obligations.EveryStepKeepsTheSlotsSound : Prop := Kept SlotsSound

/-- A step whose front command, if there is one, is no reset keeps RUN and UNCONFIGURED (R179), and keeps
SLAM (Table 11-1). A step with no command waiting is one of these. -/
def Obligations.ResetAloneLeavesRunAndSlam : Prop :=
  ∀ (s t : State), step s = .next t → (∀ c ∈ s.pending.head?, ¬ Resets c) →
    (s.sl.station = .run → t.sl.station = .run) ∧
      (s.sl.station = .unconfigured → t.sl.station = .unconfigured) ∧
      (s.pc.state = .slam → t.pc.state = .slam)

/-- Every command answers a next state: none faults, none is refused. That no event stops the station is
read from the manual as a whole (log 17). -/
def Obligations.EveryCommandAnswersANextState : Prop :=
  ∀ (c : Instr) (s : State), ∃ t, exec c s = .next t

/-! ### Selection (Chapters 1 and 3) -/

/-- A selection does nothing while a claim is in flight, or where no entry is eligible and unblocked. In
NORMAL mode the first eligible entry that no guard-passed entry blocks is marked in flight, its figures
are fixed from the present supply reading, its claim is recorded and its CLAIM frame waits in slot 0. In
ISOLATED mode that entry's claim is granted at once, and a selection follows. A new entry is placed
behind its own class and the lower ones, and ahead of the higher (R9, R10, R11, R12, R42, R56, R68,
R91). -/
def Obligations.SelectionClaimsTheFirstEligibleEntry : Prop :=
  (∀ (s : State), s.db.claim.isSome = true → select s = s) ∧
  (∀ (s : State), (∀ e, ¬ Chosen s e) → select s = s) ∧
  (∀ (s : State) (e : Entry), s.db.claim = none → s.isolated = false → Chosen s e →
    ∃ c, FixedAt s e c ∧ select s = claimMade s c) ∧
  (∀ (s : State) (e : Entry), s.db.claim = none → s.isolated = true → Chosen s e →
    ∃ c, FixedAt s e c ∧ Passes s.db.viewTotal c.draw (ceilingOf s c.cls) ∧
      select s = select (afterDecision s c s.tick)) ∧
  (∀ (e : Entry) (l : List Entry), l.Pairwise (fun a b => a.cls ≤ b.cls) →
    ∃ ahead behind, l = ahead ++ behind ∧ insertEntry e l = ahead ++ e :: behind ∧
      (∀ x ∈ ahead, x.cls ≤ e.cls) ∧ ∀ x ∈ behind, e.cls < x.cls)

/-! ### Coil requests (Chapters 1, 5, 10) -/

namespace Sys2Proof.Machine

abbrev Pre.offRequest (s : State) (k : CommandKind) (f : Heard) (n : Out) (r : Request) : Prop :=
  Pre.coil s k f n r ∧ (s.ch n).state = .off

abbrev Pre.busyRequest (s : State) (k : CommandKind) (f : Heard) (n : Out) (r : Request) : Prop :=
  Pre.coil s k f n r ∧ Pre.busy (s.ch n)

end Sys2Proof.Machine

/-- FIRE and HOLD on an output in OFF: the output goes to QUEUED with an entry of kind SINGLE, HOLD with
hold-wanted set, and a selection follows (R6, R9, R12). A HOLD that comes together with the end of POWER,
`RequestsToABusyOutput` states. What a selection does, `SelectionClaimsTheFirstEligibleEntry` states. -/
def Obligations.FireAndHoldQueueAnOffOutput : Prop :=
  (∀ (s : State) (f : Heard) (n : Out) (o : Option Nat),
    Pre.offRequest s .fire f n (.fire o) →
    exec (.fire f) s = .next (select (queuedWith (heard s f) n false o))) ∧
  (∀ (s : State) (f : Heard) (n : Out),
    Pre.offRequest s .hold f n .hold → n ∉ s.powerEnded →
    exec (.hold f) s = .next
      (select (queuedWith (withChan (heard s f) n { s.ch n with holdWanted := true }) n false none)))

namespace Sys2Proof.Machine

/-- A request on an output in OFF that a local decision will grant: the budget mode is ISOLATED and
nothing else waits (R10, R68). `d` is the draw, `t` the power time. -/
abbrev Pre.alone (s : State) (k : CommandKind) (f : Heard) (n : Out) (r : Request) (base d t : Nat) :
    Prop :=
  Pre.offRequest s k f n r ∧ (heard s f).isolated = true ∧ s.cs.queue = [] ∧ s.db.claim = none ∧
    s.sc.supplyState = .normal ∧ t = stretch base s.cfg.station.vnom s.sc.supply ∧
    d = drawOf (s.prof n).res s.cfg.station.vnom s.sc.supply ∧
    Passes (heard s f).db.viewTotal d s.cfg.station.soloS

/-- The train record a request makes (R90). -/
def newTrain (req : TrainReq) (size : Nat) : Train where
  free := req.free
  remaining := if req.free then 0 else req.n
  period := req.period
  size := req.burst.getD size
  done := req.done
  stopRequested := false
  fired := 0
  wrap := false
  burst := none

/-- The pulses a new train offers (R91). -/
def firstPulses (s : State) (n : Out) (req : TrainReq) : Nat :=
  if req.free then req.burst.getD (s.prof n).burst
  else min (req.burst.getD (s.prof n).burst) req.n

end Sys2Proof.Machine

/-- In ISOLATED mode a FIRE or a TRAIN that passes against S starts its pulse at once, and no CLAIM frame
is made (R15, R68). The burst of a TRAIN has the size left by the halvings for duration and heat: remaining
is lowered by it, the burst figures are set, one pulse is started, and the entry in the view lasts for the
whole burst (R42, R91, R92, R93). -/
def Obligations.IsolatedRequestsAreGrantedLocally : Prop :=
  (∀ (s : State) (f : Heard) (n : Out) (o : Option Nat) (d p : Nat),
    Pre.alone s .fire f n (.fire o) (o.getD (s.prof n).base) d p →
    HeatPasses (s.ch n).heat (s.prof n).heatLimit 1 p →
    exec (.fire f) s = .next (afterDecision (queuedWith (heard s f) n false o)
      ⟨n, (s.prof n).cls, d, p, none, p, false⟩ s.tick)) ∧
  (∀ (s : State) (f : Heard) (n : Out) (req : TrainReq) (d p period k₁ k : Nat),
    Pre.alone s .train f n (.train req) (s.prof n).base d p →
    HeatPasses (s.ch n).heat (s.prof n).heatLimit (firstPulses s n req) p →
    period = max req.period (p + (s.prof n).cool) →
    Halved (fun j => (j - 1) * period + p ≤ 65535) (firstPulses s n req) k₁ →
    Halved (fun j => j * p ≤ (s.prof n).heatLimit) k₁ k →
    exec (.train f) s = .next (afterDecision
      (queuedWith (withChan (heard s f) n { s.ch n with
        train := some (newTrain req (s.prof n).burst) }) n true none)
      ⟨n, (s.prof n).cls, d, p, some (k, period), (k - 1) * period + p, false⟩ s.tick))

namespace Sys2Proof.Machine

abbrev Pre.releaseHold (s : State) (f : Heard) (n : Out) : Prop :=
  Pre.coil s .release f n .release ∧ (s.ch n).state = .hold

/-- A HOLD on an output whose POWER ran out at this very instant and left it in COOL, or in OFF where its
cool time is 0 (R16). -/
abbrev Pre.holdAtEnd (s : State) (f : Heard) (n : Out) : Prop :=
  Pre.coil s .hold f n .hold ∧ n ∈ s.powerEnded ∧
    ((s.ch n).state = .off ∨ (s.ch n).state = .cool ∧ (s.ch n).train = none)

end Sys2Proof.Machine

/-- FIRE, HOLD and RELEASE on a busy output without a train (Table 1-9). RELEASE of an output in HOLD
clears hold-wanted and takes the output to COOL for its cool time, and its hold draw leaves the own
standing draw; a cool time of 0 ends there and then (R18, R19, R64), after the selection of the fallen
draw, which is the model's choice (log 41). An output in HOLD has no entry in the queue, as
`EveryStepKeepsTheCoilsSound` says. RELEASE of an output in OFF has no effect on it (R6), and on an output
with a train record clears hold-wanted and no more (R96). A HOLD taken after the end of POWER at the same
instant leads to HOLD as one taken before it does (R16, R17); how the model knows the instant, and that it
does so for an output in OFF by a cool time of 0, is its own (log 44). -/
def Obligations.RequestsToABusyOutput : Prop :=
  (∀ (s : State) (f : Heard) (n : Out) (o : Option Nat),
    Pre.busyRequest s .fire f n (.fire o) →
    exec (.fire f) s = .next
      (if (s.ch n).repeats < (s.prof n).depth then
        (heard s f).updCh n fun c => { c with repeats := c.repeats + 1 }
      else busyCounted ((heard s f).updCh n fun c => { c with overflow := true }))) ∧
  (∀ (s : State) (f : Heard) (n : Out),
    Pre.busyRequest s .hold f n .hold → ¬ Pre.holdAtEnd s f n →
    exec (.hold f) s = .next ((heard s f).updCh n fun c =>
      if c.state = .hold then
        { c with
          holdWanted := true
          phaseEnd := s.tick + BitVec.ofNat 32 (10 * (s.prof n).maxHold) }
      else { c with holdWanted := true })) ∧
  (∀ (s : State) (f : Heard) (n : Out),
    Pre.busyRequest s .release f n .release → (s.ch n).state ≠ .hold →
    exec (.release f) s = .next ((heard s f).updCh n fun c => { c with holdWanted := false })) ∧
  (∀ (s : State) (f : Heard) (n : Out) (i : Fin 63), Pre.releaseHold s f n → Pre.number s.own i →
    (∀ e ∈ s.cs.queue, e.output ≠ n) →
    exec (.release f) s = .next (coolIfOver (restood (withChan (heard s f) n
      (cooled s.tick (s.prof n).cool { s.ch n with holdWanted := false })) i) n)) ∧
  (∀ (s : State) (f : Heard) (n : Out), Pre.offRequest s .release f n .release →
    exec (.release f) s = .next (heard s f)) ∧
  (∀ (s : State) (f : Heard) (n : Out) (tr : Train), Pre.coil s .release f n .release →
    Pre.inTrain (s.ch n) tr →
    exec (.release f) s = .next ((heard s f).updCh n fun c => { c with holdWanted := false })) ∧
  (∀ (s : State) (f : Heard) (n : Out) (i : Fin 63), Pre.holdAtEnd s f n → Pre.number s.own i →
    exec (.hold f) s = .next (restood (withChan (heard s f) n
      (inHold s n { s.ch n with holdWanted := true })) i))

namespace Sys2Proof.Machine

/-- The requests of R8 on an output in FAULT. -/
abbrev Pre.faulted (s : State) (k : CommandKind) (f : Heard) (n : Out) (r : Request) : Prop :=
  Pre.coil s k f n r ∧ (s.ch n).state = .fault

/-- FIRE, HOLD, or a TRAIN that a running train does not take (R8, R96); a TRAIN on a busy output
without a train record (R89). -/
abbrev Pre.refused (s : State) (k : CommandKind) (f : Heard) (n : Out) (r : Request) : Prop :=
  Pre.coil s k f n r ∧
    ((∃ tr, Pre.inTrain (s.ch n) tr ∧
      ((∃ o, r = .fire o) ∨ r = .hold ∨
        ∃ req, r = .train req ∧ (req.free = true ∨ tr.free = true ∨ tr.stopRequested = true))) ∨
    (Pre.busy (s.ch n) ∧ ∃ req, r = .train req))

end Sys2Proof.Machine

/-- The requests dropped with the busy-drop counter raised (R8, R89, R96). A coil request of a class
the play state disables, or taken while stopped, is dropped with the tilt-drop counter raised (R4). -/
def Obligations.RefusedRequestsAreCounted : Prop :=
  (∀ (s : State) (k : CommandKind) (f : Heard) (n : Out) (r : Request),
     Pre.faulted s k f n r ∨ Pre.refused s k f n r →
     exec (commandRow k f) s = .next (busyCounted (heard s f))) ∧
  (∀ (s : State) (k : CommandKind) (f : Heard) (n : Out) (r : Request),
     Pre.takes s k f (.coil n r) → s.pc.stopped = true ∨ ClassOff s.pc.state (s.prof n).cls →
     exec (commandRow k f) s = .next
       { heard s f with pc.tiltDrop := min 65535 (s.pc.tiltDrop + 1) })

namespace Sys2Proof.Machine

/-- The station state admits the command, and the frame is addressed here or carries no byte
(R161). -/
abbrev Pre.admitted (s : State) (k : CommandKind) (f : Heard) : Prop :=
  s.canReceive = true ∧
    (s.sl.station = .run ∨ s.sl.station = .unconfigured ∧ k = .query) ∧
    (f.payload = [] ∨ addressed s.own f.payload = true)

/-- Payload byte 2 names a CS output (R162). -/
abbrev NamesCoil (cfg : Settings) (p : List Byte) (n : Out) : Prop :=
  pByte p 2 = n.val ∧ ((cfg.profiles.get n).mode = .pulse ∨ (cfg.profiles.get n).mode = .pulseHold)

/-- A payload reads as a command of its kind (R162, R163, Table 12-2). -/
def Reads (cfg : Settings) : CommandKind → List Byte → Command → Prop
  | .fire, p, c => ∃ n, NamesCoil cfg p n ∧
      (p.length = 2 ∧ c = .coil n (.fire none) ∨
        4 ≤ p.length ∧ 1 ≤ pWord p 3 ∧ pWord p 3 ≤ 2000 ∧ c = .coil n (.fire (some (pWord p 3))))
  | .hold, p, c => ∃ n, NamesCoil cfg p n ∧ 2 ≤ p.length ∧ c = .coil n .hold
  | .release, p, c => ∃ n, NamesCoil cfg p n ∧ 2 ≤ p.length ∧ c = .coil n .release
  | .train, p, c => ∃ n, NamesCoil cfg p n ∧ 7 ≤ p.length ∧ 10 ≤ pWord p 5 ∧ pWord p 5 ≤ 10000 ∧
      (pByte p 3 = 0 ∧ 1 ≤ pByte p 4 ∨ pByte p 3 = 1) ∧
      (pByte p 7 = 0 ∨ pByte p 7 = 1 ∨ pByte p 7 = 2 ∨ pByte p 7 = 4 ∨ pByte p 7 = 8) ∧
      c = .coil n (.train ⟨decide (pByte p 3 = 1), if pByte p 3 = 1 then 0 else pByte p 4, pWord p 5,
        if pByte p 7 = 0 then none else some (pByte p 7),
        if 8 ≤ p.length then some (byte (pByte p 8)) else none⟩)
  | .trainStop, p, c => ∃ n, NamesCoil cfg p n ∧ 3 ≤ p.length ∧ pByte p 3 ≤ 1 ∧
      c = .coil n (.trainStop (decide (pByte p 3 = 1)))
  | .lamp, p, c => ∃ (l : Lamp) (mode : LampMode), 6 ≤ p.length ∧ pByte p 2 = l.val ∧
      (pByte p 3 = 0 ∧ mode = .off ∨ pByte p 3 = 1 ∧ mode = .on ∨ pByte p 3 = 2 ∧ mode = .flash) ∧
      pByte p 4 ≤ 15 ∧ c = .lampSet l mode (pByte p 4) (BitVec.ofNat 16 (pWord p 5))
  | .clear, p, c => ∃ n : Out, 2 ≤ p.length ∧ pByte p 2 = n.val ∧
      (cfg.profiles.get n).mode ≠ .unused ∧ c = .clear n
  | .query, p, c => 2 ≤ p.length ∧ c = .query (pByte p 2)

end Sys2Proof.Machine

/-- A command is read from its payload exactly where it passes the checks of R162, field by field and by
its length, as the command its fields name; a frame is addressed by its first byte, here or to 63 (R161).
A command that fails them is discarded and counted. A command frame for another station, or in a station
state that admits none, is a heard frame and no more (R161). A QUERY of a page above 22 is read here; that
it is counted, `QueryIsAnsweredWithItsPage` states. -/
def Obligations.CommandFramesAreAdmittedAndChecked : Prop :=
  (∀ (s : State) (k : CommandKind) (f : Heard),
     Pre.admitted s k f → (∀ c, ¬ Reads s.cfg k f.payload c) →
     exec (commandRow k f) s = .next
       { heard s f with er.badCommand := min 65535 (s.er.badCommand + 1) }) ∧
  (∀ (s : State) (k : CommandKind) (f : Heard), s.canReceive = true →
     (s.sl.station ≠ .run ∧ ¬ (s.sl.station = .unconfigured ∧ k = .query) ∨
       f.payload ≠ [] ∧ addressed s.own f.payload = false) →
     exec (commandRow k f) s = .next (heard s f)) ∧
  (∀ (cfg : Settings) (k : CommandKind) (p : List Byte) (c : Command),
    readCommand cfg k p = some c ↔ Reads cfg k p c) ∧
  (∀ (own : BitVec 6) (p : List Byte),
    addressed own p = true ↔ pByte p 1 = own.toNat ∨ pByte p 1 = 63)

namespace Sys2Proof.Machine

abbrev Pre.trainAdd (s : State) (f : Heard) (n : Out) (req : TrainReq) (tr : Train) : Prop :=
  Pre.coil s .train f n (.train req) ∧ Pre.inTrain (s.ch n) tr ∧ req.free = false ∧
    tr.free = false ∧ tr.stopRequested = false

end Sys2Proof.Machine

/-- A TRAIN on an output in OFF makes the train record and queues the first burst, and a selection
follows (R12, R90); a COUNT train on a COUNT train adds to remaining, saturating at 255 with a busy-drop
for what is lost (R96). -/
def Obligations.TrainStartsOrAdds : Prop :=
  (∀ (s : State) (f : Heard) (n : Out) (req : TrainReq),
    Pre.offRequest s .train f n (.train req) →
    exec (.train f) s = .next (select (queuedWith (withChan (heard s f) n { s.ch n with
      train := some (newTrain req (s.prof n).burst) }) n true none))) ∧
  (∀ (s : State) (f : Heard) (n : Out) (req : TrainReq) (tr : Train),
    Pre.trainAdd s f n req tr →
    exec (.train f) s = .next
      (let t := (heard s f).updCh n fun c =>
        { c with train := some { tr with remaining := min 255 (tr.remaining + req.n) } }
      if 255 < tr.remaining + req.n then busyCounted t else t))

namespace Sys2Proof.Machine

abbrev Pre.stop (s : State) (f : Heard) (n : Out) (cancel : Bool) (tr : Train) : Prop :=
  Pre.coil s .trainStop f n (.trainStop cancel) ∧ (s.ch n).train = some tr

end Sys2Proof.Machine

/-- TRAIN STOP by the output's state (R97, R98): graceful in POWER and COOL, cancelling in COOL, both in
GAP, cancelling in POWER. In QUEUED the entry leaves the queue, a claim in flight for it is withdrawn,
the output is OFF and a selection follows; a graceful stop makes the done report there (R63, R99). Without
a train it has no effect. -/
def Obligations.TrainStopByState : Prop :=
  (∀ (s : State) (f : Heard) (n : Out) (tr : Train), Pre.stop s f n false tr →
    (s.ch n).state = .power ∨ (s.ch n).state = .cool →
    exec (.trainStop f) s = .next ((heard s f).updCh n fun c =>
      { c with train := some { tr with stopRequested := true } })) ∧
  (∀ (s : State) (f : Heard) (n : Out) (tr : Train), Pre.stop s f n true tr →
    (s.ch n).state = .cool →
    exec (.trainStop f) s = .next ((heard s f).updCh n fun c => { c with train := none })) ∧
  (∀ (s : State) (f : Heard) (n : Out) (tr : Train), Pre.stop s f n false tr →
    (s.ch n).state = .gap →
    exec (.trainStop f) s = .next (coolEntered (heard s f) n
      { s.ch n with train := some { tr with stopRequested := true } })) ∧
  (∀ (s : State) (f : Heard) (n : Out) (tr : Train), Pre.stop s f n true tr →
    (s.ch n).state = .power ∨ (s.ch n).state = .gap →
    exec (.trainStop f) s = .next (coolEntered (heard s f) n { s.ch n with train := none })) ∧
  (∀ (s : State) (f : Heard) (n : Out) (tr : Train), Pre.stop s f n false tr →
    (s.ch n).state = .queued →
    exec (.trainStop f) s = .next (select (trainEnded (unqueued (heard s f) n) n tr))) ∧
  (∀ (s : State) (f : Heard) (n : Out) (tr : Train), Pre.stop s f n true tr →
    (s.ch n).state = .queued →
    exec (.trainStop f) s = .next (select (withChan (unqueued (heard s f) n) n
      (offed { s.ch n with train := none })))) ∧
  (∀ (s : State) (f : Heard) (n : Out) (cancel : Bool),
    Pre.coil s .trainStop f n (.trainStop cancel) → (s.ch n).train = none →
    (s.ch n).state ≠ .fault →
    exec (.trainStop f) s = .next (heard s f))

namespace Sys2Proof.Machine

/-- A fault cleared: NONE, count 0 (R24). -/
def unfaulted (st : ChanState) (c : Channel) : Channel :=
  { c with state := st, faultKind := .none, openCount := 0 }

abbrev Pre.clear (s : State) (f : Heard) (n : Out) : Prop := Pre.takes s .clear f (.clear n)

end Sys2Proof.Machine

/-- LAMP replaces the record's mode, brightness and pattern, and restarts a soft-start that runs (R115,
R120). CLEAR takes a CS output from FAULT to OFF, leaves an output in another state, and makes a flipper
output available again, with its flipper once no output of the flipper is in FAULT (R24, R85). -/
def Obligations.LampAndClearTakeEffect : Prop :=
  (∀ (s : State) (f : Heard) (l : Lamp) (mode : LampMode) (b : Nat) (p : BitVec 16),
    Pre.takes s .lamp f (.lampSet l mode b p) →
    exec (.lamp f) s = .next { heard s f with
      lp.lamps := s.lp.lamps.set l { s.lp.lamps.get l with
        mode := mode
        b := b
        pattern := p
        step := if (s.lp.lamps.get l).step = 0 then 0 else 1
        left := if (s.lp.lamps.get l).step = 0 then (s.lp.lamps.get l).left else 4 } }) ∧
  (∀ (s : State) (f : Heard) (n : Out), Pre.clear s f n → (s.ch n).state ≠ .fault →
    exec (.clear f) s = .next (heard s f)) ∧
  (∀ (s : State) (f : Heard) (n : Out), Pre.clear s f n → (s.ch n).state = .fault →
    (s.prof n).mode.isCS = true →
    exec (.clear f) s = .next ((heard s f).updCh n (unfaulted .off))) ∧
  (∀ (s : State) (f : Heard) (n : Out) (i : Flip), Pre.clear s f n → (s.ch n).state = .fault →
    (s.prof n).mode = .flipper → s.cfg.flipperOf n = some i →
    exec (.clear f) s = .next
      (let t := (heard s f).updCh n (unfaulted .flipper)
      if ∀ m, m ≠ n → (s.cfg.flippers.get i).drives m = true → (s.ch m).state ≠ .fault then
        { t with fl := s.fl.set i { s.fl.get i with disabled := false } }
      else t))

namespace Sys2Proof.Machine

/-- A STATUS frame of this station (Table 8-2). -/
def statusOf (s : State) (payload : List Byte) : Frame := ⟨6, 6, s.own, payload⟩

abbrev Pre.query (s : State) (f : Heard) (page : Nat) : Prop :=
  Pre.admitted s .query f ∧ readCommand s.cfg .query f.payload = some (.query page)

/-- A bit of a status byte. -/
def bitAt (b : Bool) (i : Nat) : Nat := if b then 2 ^ i else 0

/-- The status code of an output (Table 1-5): an output in QUEUED shows 2 while its entry is in
flight. -/
def codeShown (s : State) (n : Out) : Nat :=
  match (s.ch n).state with
  | .off => 0
  | .queued => if (s.entryOf n).any (·.inFlight) then 2 else 1
  | .power => 3
  | .hold => 4
  | .cool => 5
  | .gap => 6
  | .fault => 7
  | .flipper => 8

/-- The fault kind of an output as its code (Table 12-3). -/
def kindShown (s : State) (n : Out) : Nat :=
  match (s.ch n).faultKind with | .none => 0 | .short => 1 | .open => 2

/-- Two status codes in a byte, four fault kinds in a byte (pages 2 and 3). -/
def codePair (s : State) (a b : Out) : Byte := byte (codeShown s a * 16 + codeShown s b)
def kindFour (s : State) (a b c d : Out) : Byte :=
  byte (kindShown s a * 64 + kindShown s b * 16 + kindShown s c * 4 + kindShown s d)

/-- Eight switch bits in a byte, the highest-numbered switch in bit 7 (page 6). -/
def switchByte (p : Sw → Bool) (low : Sw) : Byte :=
  byte (bitAt (p low) 0 + bitAt (p (low + 1)) 1 + bitAt (p (low + 2)) 2 + bitAt (p (low + 3)) 3 +
    bitAt (p (low + 4)) 4 + bitAt (p (low + 5)) 5 + bitAt (p (low + 6)) 6 + bitAt (p (low + 7)) 7)

/-- The bytes of page 7 + n part 0 after its number (Table 12-4). -/
def outputShown (s : State) (n : Out) : List Byte :=
  let c := s.ch n
  let e := s.entryOf n
  twoBytes (s.sc.last.get n) ++ twoBytes c.heat ++
    [byte (c.repeats + bitAt c.holdWanted 2 + bitAt c.overflow 3 + bitAt c.openPending 4 +
        bitAt (e.any (·.waits)) 5 + bitAt (e.any (·.inFlight)) 6 + bitAt (e.any (·.guard)) 7),
      byte (c.openCount * 64 + bitAt e.isSome 5 +
        match e with | some e => if e.burst then pulsesOf s e else 0 | none => 0),
      byte c.holdTimeouts]

/-- The bytes of page 7 + n part 1 after its number: the train record. That byte 6 is 0 without a done
code is the model's choice (log 34). -/
def trainShown (tr : Train) : List Byte :=
  [byte (bitAt tr.free 0 + bitAt tr.stopRequested 1 + bitAt tr.wrap 2 + bitAt tr.done.isSome 3 +
      16 * tr.size), byte tr.remaining] ++ twoBytes tr.period ++ [tr.done.getD 0] ++
    twoBytes tr.fired

/-- The bytes of page 7 + n part 2 after its number: the burst that runs. -/
def burstShown (b : Burst) : List Byte :=
  [byte b.kPrime] ++ twoBytes b.period ++ twoBytes b.t ++ [byte b.started]

/-- The bytes of page 7 + n part 3 after its number, for an output that flipper i drives. -/
def flipperShown (s : State) (i : Flip) (n : Out) : List Byte :=
  let r := s.fl.get i
  if (s.cfg.flippers.get i).power = n then
    [byte i.val,
      byte (match r.state with | .rest => 0 | .power => 1 | .hold => 2 | .repower => 3),
      byte (bitAt r.timed 0 + bitAt r.reduced 1 + bitAt r.faulty 2 + bitAt r.disabled 3),
      byte (r.repowers + 4 * r.closedCount)]
  else [byte (i.val + 4)]

/-- The payloads of the STATUS frames of a page 0 to 22 (Table 12-4): the first byte of each is
part × 32 + page. -/
def pageShown (s : State) : Nat → List (List Byte)
  | 0 => [[0,
      byte (match s.sl.station with
        | .reset => 0 | .loading => 1 | .joining => 2 | .run => 3 | .unconfigured => 4),
      byte ((match s.pc.state with | .idle => 0 | .play => 1 | .tilt => 2 | .slam => 3) +
        bitAt s.pc.stopped 7),
      byte (match s.lc.state with | .active => 0 | .passive => 1 | .silent => 2),
      byte s.lc.TEC, byte s.lc.REC, byte s.own.toNat,
      byte (match s.sl.reason with
        | .none => 0 | .badStation => 1 | .format => 2 | .sum => 3 | .field => 4)]]
  | 1 => [1 :: (twoBytes s.sc.supply ++
      [match s.sc.supplyState with | .normal => (0 : Byte) | .low => 1] ++ twoBytes (viewOf s) ++
      twoBytes (match standingIdx s.own with | some i => (s.db.standing.get i).draw | none => 0)),
      [33, byte s.db.table.length, byte (s.db.table.filter (·.withdrawn)).length,
        byte s.cs.queue.length, if s.isolated then 1 else 0]]
  | 2 => [[2, codePair s 0 1, codePair s 2 3, codePair s 4 5, codePair s 6 7],
      [34, codePair s 8 9, codePair s 10 11, codePair s 12 13, codePair s 14 15]]
  | 3 => [[3, kindFour s 0 1 2 3, kindFour s 4 5 6 7, kindFour s 8 9 10 11, kindFour s 12 13 14 15]]
  | 4 => [4 :: (twoBytes s.cs.busyDrop ++ twoBytes s.cs.waitDrop ++ twoBytes s.db.deny),
      36 :: twoBytes s.pc.tiltDrop]
  | 5 => [5 :: (twoBytes s.er.unmatched ++ twoBytes s.er.badCommand ++ twoBytes s.lc.txDrop),
      37 :: twoBytes s.cs.unchecked]
  | 6 =>
    let closed (sw : Sw) : Bool := match (s.sw.sw.get sw).state with
      | .closed => true | .opening => true | .stuck => true | .open => false | .closing => false
    let stuck (sw : Sw) : Bool := decide ((s.sw.sw.get sw).state = .stuck)
    [[6, switchByte closed 16, switchByte closed 8, switchByte closed 0,
        switchByte stuck 16, switchByte stuck 8, switchByte stuck 0],
      38 :: twoBytes s.sw.stuckCount]
  | n + 7 => match outOf n with
    | none => []
    | some o =>
      [byte (7 + n) :: outputShown s o] ++
        (match (s.ch o).train with
          | none => []
          | some tr => [byte (39 + n) :: trainShown tr] ++
            (match tr.burst with | some b => [byte (71 + n) :: burstShown b] | none => [])) ++
        (match (s.prof o).mode, s.cfg.flipperOf o with
          | .flipper, some i => [byte (103 + n) :: flipperShown s i o]
          | _, _ => [])

end Sys2Proof.Machine

/-- QUERY: every page 0 to 22 is answered with the parts and contents of Table 12-4, in part order, each
a STATUS frame of priority 6 handed to LC; for page 7 + n the repeat-overflow flag is cleared where LC
takes the reply. A page above 22 is counted as a bad command and answered with its number alone (R162,
R181, R182). The model's choices: that the reply shows the QUERY itself as received (log 36); that the flag
is cleared although the reply is dropped (log 25); the done-code byte of a train without one (log 34); part
2 of page 7 + n through the COOL after a burst's last pulse (log 42); the bits of page 7 + n that Table 12-4
gives no item (log 46). -/
def Obligations.QueryIsAnsweredWithItsPage : Prop :=
  (∀ (s : State) (f : Heard) (page : Nat), Pre.query s f page → page ≤ 6 →
    exec (.query f) s = .next { heard s f with
      lc := (pageShown (heard s f) page).foldl (fun lc p => lc.hand (statusOf s p))
        (heard s f).lc }) ∧
  (∀ (s : State) (f : Heard) (n : Out), Pre.query s f (7 + n.val) →
    exec (.query f) s = .next
      (let t := heard s f
      { t with
        cs := { t.cs with chan := if t.lc.state = .silent then t.cs.chan
          else t.cs.chan.set n { s.ch n with overflow := false } }
        lc := (pageShown t (7 + n.val)).foldl (fun lc p => lc.hand (statusOf s p)) t.lc })) ∧
  (∀ (s : State) (f : Heard) (page : Nat), Pre.query s f page → 22 < page →
    exec (.query f) s = .next { heard s f with
      er.badCommand := min 65535 (s.er.badCommand + 1)
      lc := (heard s f).lc.hand (statusOf s [byte page]) })

/-! ### The pending queue and the phases of an output (Chapters 1 and 5) -/

namespace Sys2Proof.Machine

/-- An entry of output n waits, and its age exceeds ten times the skip guard for the first time
(R11). -/
abbrev Pre.guard (s : State) (n : Out) (e : Entry) : Prop :=
  s.entryOf n = some e ∧ e.guard = false ∧
    10 * s.cfg.station.skipGuard < (s.tick - e.arrival).toNat

/-- An entry of output n waits, and its age has reached ten times its wait limit (R14). -/
abbrev Pre.waitLimit (s : State) (n : Out) (e : Entry) (w : Nat) : Prop :=
  s.entryOf n = some e ∧ (s.prof n).waitLimit = some w ∧
    10 * w ≤ (s.tick - e.arrival).toNat

end Sys2Proof.Machine

/-- GUARD_PASSED sets the guard-passed flag of the output's entry, and nothing else (R11).
WAIT_LIMIT_EXPIRY takes the entry out of the queue and withdraws its claim (WAITING, the frame leaves slot
0 and the claim is clear; ON WIRE, its withdrawn flag is set), takes the output to OFF with its repeat
count and hold-wanted cleared and its train discarded, counts a wait-drop, and a selection follows (R12,
R14, R63). -/
def Obligations.WaitingEntriesAgeByGuardAndLimit : Prop :=
  (∀ (s : State) (n : Out) (e : Entry), Pre.guard s n e →
     exec (.guardPassed n) s = .next { s with
       cs.queue := s.cs.queue.map fun e => if e.output = n then { e with guard := true } else e }) ∧
  (∀ (s : State) (n : Out) (e : Entry) (w : Nat), Pre.waitLimit s n e w →
     exec (.waitLimitExpiry n) s = .next (select
       (let t := withChan (unqueued s n) n (offed { s.ch n with
         repeats := 0, holdWanted := false, train := none })
       { t with cs := { t.cs with waitDrop := min 65535 (s.cs.waitDrop + 1) } })))

namespace Sys2Proof.Machine

/-- The power time of a single pulse runs out (R16). -/
abbrev Pre.powerEnd (s : State) (n : Out) : Prop :=
  (s.ch n).state = .power ∧ (s.ch n).train = none ∧ reached s.tick (s.ch n).phaseEnd = true

end Sys2Proof.Machine

/-- POWER_END: FAULT of kind OPEN at a consecutive-open count of 3, with a FAULT NOTICE handed; else HOLD
on a PULSE_HOLD output with hold-wanted, at the hold draw of the pulse just ended, which joins the own
standing draw and is announced; else COOL (R16, R17, R19, R23, R39, R64, R65). A HOLD taken after it at
the same instant finds that COOL, or the OFF that follows a cool time of 0 with no pulse owed, and leads to
HOLD (R16, log 44). -/
def Obligations.PowerEndLeadsToFaultHoldOrCool : Prop :=
  (∀ (s : State) (n : Out) (i : Fin 63), Pre.powerEnd s n → Pre.number s.own i →
    (s.ch n).openCount = 3 →
    exec (.powerEnd n) s = .next (faultTaken s i n .open 2)) ∧
  (∀ (s : State) (n : Out) (i : Fin 63), Pre.powerEnd s n → Pre.number s.own i →
    (s.ch n).openCount ≠ 3 → (s.prof n).mode = .pulseHold → (s.ch n).holdWanted = true →
    exec (.powerEnd n) s = .next
      (restood (withChan (powerOver s n) n (inHold s n (s.ch n))) i)) ∧
  (∀ (s : State) (n : Out), Pre.powerEnd s n → (s.ch n).openCount ≠ 3 →
    ¬ ((s.prof n).mode = .pulseHold ∧ (s.ch n).holdWanted = true) →
    exec (.powerEnd n) s = .next (coolEntered (powerOver s n) n (s.ch n))) ∧
  (∀ (s t : State) (f : Heard) (n : Out) (i : Fin 63), Pre.powerEnd s n → Pre.number s.own i →
    (s.ch n).openCount ≠ 3 → (s.prof n).mode = .pulseHold → (s.ch n).holdWanted = false →
    0 < (s.prof n).cool ∨ (s.ch n).repeats = 0 → exec (.powerEnd n) s = .next t →
    Pre.coil t .hold f n .hold →
    (t.ch n).draw = (s.ch n).draw ∧
    exec (.hold f) t = .next (restood (withChan (heard t f) n
      (inHold t n { t.ch n with holdWanted := true })) i))

namespace Sys2Proof.Machine

/-- The phase of output n in this state is over. -/
abbrev Pre.over (s : State) (n : Out) (st : ChanState) : Prop :=
  (s.ch n).state = st ∧ reached s.tick (s.ch n).phaseEnd = true

end Sys2Proof.Machine

/-- MAX_HOLD_EXPIRY clears hold-wanted, counts a hold-timeout and takes the output to COOL, its hold draw
leaving the own standing draw (R18, R64), before COOL ends where its time is 0, which is the model's choice
(log 41). An output in HOLD has no entry in the queue, as `EveryStepKeepsTheCoilsSound` says. COOL_END: OFF
with hold-wanted cleared where no pulse is owed, else QUEUED again with one pulse less owed, and a selection
(R12, R19). -/
def Obligations.HoldAndCoolEndInTheirStates : Prop :=
  (∀ (s : State) (n : Out) (i : Fin 63), Pre.over s n .hold → Pre.number s.own i →
     (∀ e ∈ s.cs.queue, e.output ≠ n) →
     exec (.maxHoldExpiry n) s = .next (coolIfOver (restood (withChan s n
       (cooled s.tick (s.prof n).cool { s.ch n with
         holdWanted := false
         holdTimeouts := min 255 ((s.ch n).holdTimeouts + 1) })) i) n)) ∧
  (∀ (s : State) (n : Out), Pre.over s n .cool → (s.ch n).train = none →
    exec (.coolEnd n) s = .next (coolEnded s n))

namespace Sys2Proof.Machine

/-- The power time of a pulse of a train runs out (R93). -/
abbrev Pre.pulseEnd (s : State) (n : Out) (tr : Train) : Prop :=
  Pre.over s n .power ∧ (s.ch n).train = some tr

/-- A pulse is still to come in the burst (R93). -/
abbrev Pre.moreToCome (tr : Train) (b : Burst) : Prop :=
  tr.burst = some b ∧ b.started < b.kPrime ∧ tr.stopRequested = false

/-- The next pulse of a burst is due (R93). -/
abbrev Pre.pulseStart (s : State) (n : Out) (tr : Train) (b : Burst) : Prop :=
  (s.ch n).state = .gap ∧ (s.ch n).train = some tr ∧ tr.burst = some b ∧
    reached s.tick (b.grantAt + BitVec.ofNat 32 (b.started * b.period)) = true

end Sys2Proof.Machine

/-- TRAIN_PULSE_END: FAULT of kind OPEN at a count of 3; else GAP while a pulse is still to come; else
COOL (R23, R93). BURST_PULSE_START starts the next pulse: POWER for t, the heat raised by t, the pulses
started and the fired count raised, the open check scheduled; the fired count of a COUNT train stops at
65535, and that of a FREE train wraps to 0 with the wrap flag set (R15, R21, R43, R93). -/
def Obligations.TrainPulsesFollowInTurn : Prop :=
  (∀ (s : State) (n : Out) (i : Fin 63) (tr : Train), Pre.pulseEnd s n tr → Pre.number s.own i →
    (s.ch n).openCount = 3 →
    exec (.trainPulseEnd n) s = .next (faultTaken s i n .open 2)) ∧
  (∀ (s : State) (n : Out) (tr : Train) (b : Burst), Pre.pulseEnd s n tr →
    (s.ch n).openCount ≠ 3 → Pre.moreToCome tr b →
    exec (.trainPulseEnd n) s = .next (s.updCh n fun c =>
      { c with state := .gap, checkDue := none })) ∧
  (∀ (s : State) (n : Out) (tr : Train), Pre.pulseEnd s n tr → (s.ch n).openCount ≠ 3 →
    (∀ b, ¬ Pre.moreToCome tr b) →
    exec (.trainPulseEnd n) s = .next (coolEntered s n (s.ch n))) ∧
  (∀ (s : State) (n : Out) (tr : Train) (b : Burst), Pre.pulseStart s n tr b →
    exec (.burstPulseStart n) s = .next (s.updCh n fun c => { c with
      state := .power
      phaseEnd := s.tick + BitVec.ofNat 32 b.t
      powerStart := s.tick
      heat := min 65535 (c.heat + b.t)
      checkDue := some (if b.t ≤ 2 then s.tick else s.tick + BitVec.ofNat 32 (b.t - 2))
      train := some { tr with
        burst := some { b with started := b.started + 1 }
        fired := if tr.fired < 65535 then tr.fired + 1 else if tr.free then 0 else 65535
        wrap := if tr.free = true ∧ 65535 ≤ tr.fired then true else tr.wrap } }))

/-- BURST_COOL_END: a train stopped or with nothing remaining ends, its done report handed where it
has a done code; else its next burst is queued and a selection follows (R12, R94, R99). -/
def Obligations.BurstCoolEndEndsOrGoesOn : Prop :=
  ∀ (s : State) (n : Out) (tr : Train), Pre.over s n .cool → (s.ch n).train = some tr →
    exec (.burstCoolEnd n) s = .next (coolEnded s n)

/-! ### Sensing (Chapter 2) -/

namespace Sys2Proof.Machine

/-- The open check of output n is due (R21). -/
abbrev Pre.check (s : State) (n : Out) (due : Tick) : Prop :=
  (s.ch n).state = .power ∧ (s.ch n).checkDue = some due ∧ reached s.tick due = true

/-- A supply slot falls at this instant (R31). -/
abbrev Pre.slot (s : State) : Prop := .supplySlot ∈ s.falling

/-- The converter converts for output n (R29). -/
abbrev Pre.converting (s : State) (n : Out) (phase : Tick) (left : Nat) : Prop :=
  s.sc.conv = some ⟨.current n phase, left⟩

/-- The converter converts a supply reading, and the station is not in UNCONFIGURED. -/
abbrev Pre.supply (s : State) (left : Nat) : Prop :=
  s.sc.conv = some ⟨.supply, left⟩ ∧ s.sl.station ≠ .unconfigured

/-- The converter converts a supply reading in UNCONFIGURED (R34). -/
abbrev Pre.supplyUnconfigured (s : State) (left : Nat) : Prop :=
  s.sc.conv = some ⟨.supply, left⟩ ∧ s.sl.station = .unconfigured

/-- The arbiter hands on a free converter (R29, R30): first a supply reading that waited through the slot
after its own, then the waiting current conversion of the lowest output, then a waiting supply reading;
with nothing waiting the converter is idle. A converter that converts is left. Each conversion takes ten
units of 2 µs. -/
def Served (sc t : Sense) : Prop :=
  (sc.conv ≠ none → t = sc) ∧
  (sc.conv = none → sc.waitSupply = .overdue →
    t = { sc with waitSupply := .none, conv := some ⟨.supply, 10⟩ }) ∧
  (∀ (n : Out) (phase : Tick), sc.conv = none → sc.waitSupply ≠ .overdue →
    sc.waitCurrent.get n = some phase → (∀ m, m < n → sc.waitCurrent.get m = none) →
    t = { sc with
      waitCurrent := sc.waitCurrent.set n none, conv := some ⟨.current n phase, 10⟩ }) ∧
  (sc.conv = none → sc.waitSupply ≠ .overdue → (∀ n, sc.waitCurrent.get n = none) →
    t = if sc.waitSupply = .waiting then
      { sc with waitSupply := .none, conv := some ⟨.supply, 10⟩ } else sc)

end Sys2Proof.Machine

/-- CURRENT_CONVERSION_END sets the last current and hands the converter on, and its result is used in its
own POWER phase or counted unchecked (R22, R30, R35). That the phase is named by its start tick, which is
the grant tick for a single pulse, is the model's choice (log 23). -/
def Obligations.CurrentResultIsUsedOrUnchecked : Prop :=
  ∀ (s : State) (raw : BitVec 10) (n : Out) (phase : Tick) (left : Nat),
    Pre.converting s n phase left →
    ∃ sc, Served { s.sc with conv := none } sc ∧
      (let i := clampTo 4095 (raw.toNat * s.cfg.station.scale + (s.prof n).offset)
      exec (.currentConversionEnd raw) s = .next
        (if (s.ch n).state = .power ∧ (s.ch n).powerStart = phase then
          { withChan s n { s.ch n with
              openPending := false
              openCount := if i < (s.prof n).openThreshold then min 3 ((s.ch n).openCount + 1)
                else 0 } with
            sc := { sc with last := sc.last.set n i } }
        else
          { s with
            cs := { s.cs with
              chan := s.cs.chan.set n { s.ch n with openPending := false }
              unchecked := min 65535 (s.cs.unchecked + 1) }
            sc := { sc with last := sc.last.set n i } }))

/-- OPEN_CHECK_REQUEST sets open-check-pending and places a request, in place of an earlier one of the
output that waits, whose phase is counted unchecked; SUPPLY_SLOT places a supply reading, or marks one
that still waits as overdue. The arbiter then hands on the converter if it is free, in the order of R30
(R21, R29, R30, R31). That a request names its phase by the start tick is the model's choice (log 23). -/
def Obligations.ConverterRequestsAreServedInOrder : Prop :=
  (∀ (s : State) (n : Out) (due : Tick), Pre.check s n due →
     ∃ sc, Served { s.sc with waitCurrent := s.sc.waitCurrent.set n (some (s.ch n).powerStart) } sc ∧
       exec (.openCheckRequest n) s = .next { s with
         sc := sc
         cs := { s.cs with
           chan := s.cs.chan.set n { s.ch n with checkDue := none, openPending := true }
           unchecked := if (s.sc.waitCurrent.get n).isSome then min 65535 (s.cs.unchecked + 1)
             else s.cs.unchecked } }) ∧
  (∀ (s : State), Pre.slot s →
    ∃ sc, Served { s.sc with
        waitSupply := if s.sc.waitSupply = .none then .waiting else .overdue } sc ∧
      exec .supplySlot s = .next { s with falling := s.falling.erase .supplySlot, sc := sc })

namespace Sys2Proof.Machine

/-- The supply state and its two counts after a reading V against the threshold U (R33). -/
def supplyAfter (sc : Sense) (u v : Nat) : SupplyState × Nat × Nat :=
  match sc.supplyState with
  | .normal =>
    if u ≤ v then (.normal, 0, sc.goodCount)
    else if sc.lowCount = 2 then (.low, 0, 0)
    else (.normal, sc.lowCount + 1, sc.goodCount)
  | .low =>
    if v < u + 20 then (.low, sc.lowCount, 0)
    else if sc.goodCount = 2 then (.normal, 0, 0)
    else (.low, sc.lowCount, sc.goodCount + 1)

end Sys2Proof.Machine

/-- The end of a supply reading of raw result r: V is r plus the supply offset, held to 0 to 1023, and the
converter is handed on (R30, R32). In NORMAL a reading below U raises the low-supply count, and the third
takes the state to LOW with both counts 0, while one at U or above clears the count; in LOW the same with
U + 20 and the good-supply count (R33). A return to NORMAL brings a selection (R12). In UNCONFIGURED V
alone is set: the state and the counts stay (R34). The offset there is that of the settings, which a
station keeps blank outside JOINING and RUN, as `EveryStepKeepsTheCoilsSound` says, so it is 0 and V is r
(R32, log 28). -/
def Obligations.SupplyReadingMovesTheSupplyState : Prop :=
  (∀ (s : State) (raw : BitVec 10) (left : Nat), Pre.supply s left →
     ∃ sc, Served { s.sc with conv := none } sc ∧
       (let v := clampTo 1023 (raw.toNat + s.cfg.station.offset)
       let after := supplyAfter s.sc s.cfg.station.under v
       let t := { s with sc := { sc with
         supply := v, supplyState := after.1, lowCount := after.2.1, goodCount := after.2.2 } }
       exec (.supplyReadingEnd raw) s = .next
         (if s.sc.supplyState = .low ∧ after.1 = .normal then select t else t))) ∧
  (∀ (s : State) (raw : BitVec 10) (left : Nat), Pre.supplyUnconfigured s left →
    ∃ sc, Served { s.sc with conv := none } sc ∧
      exec (.supplyReadingEnd raw) s = .next { s with sc := { sc with
        supply := clampTo 1023 (raw.toNat + s.cfg.station.offset) } }) ∧
  (∀ (s : State) (raw : BitVec 10) (left : Nat), SettingsSound s → Pre.supplyUnconfigured s left →
    ∃ sc, Served { s.sc with conv := none } sc ∧
      exec (.supplyReadingEnd raw) s = .next { s with sc := { sc with supply := raw.toNat } })

/-- The stretch arithmetic of R40: its three rows, its clamp and its bounds. The draw of R38: the larger of
the supply and the nominal rail, times 100, over R, rounded up, held to 1 to 4095. -/
def Obligations.StretchAndDrawFollowTheirRules : Prop :=
  (∀ (b vnom v : Nat), 1 ≤ b → b ≤ 2000 → 0 < vnom →
    (vnom ≤ v → stretch b vnom v = b) ∧
    (2 * v ≤ vnom → stretch b vnom v = min (2 * b) 2000) ∧
    (vnom < 2 * v → v < vnom →
      stretch b vnom v = min ((b * vnom + v - 1) / v) (min (2 * b) 2000)) ∧
    b ≤ stretch b vnom v ∧ stretch b vnom v ≤ min (2 * b) 2000) ∧
  (∀ (res vnom v : Nat), 0 < res →
    drawOf res vnom v = max 1 (min 4095 ((max v vnom * 100 + res - 1) / res)))

/-- HEAT_DECAY_PASS lowers every heat by its output's heat decay, to 0 at the least, and where it lowered
one a selection follows; with no heat lowered nothing else follows (R12, R44). -/
def Obligations.HeatDecaysOnEveryPass : Prop :=
  (∀ (s : State), .heatDecay ∈ s.falling →
    (∃ n, 0 < (s.ch n).heat ∧ 0 < (s.prof n).heatDecay) →
    exec .heatDecayPass s = .next (select { s with
      falling := s.falling.erase .heatDecay
      cs := { s.cs with chan := s.cs.chan.mapIdx fun n c =>
        { c with heat := c.heat - (s.prof n).heatDecay } } })) ∧
  (∀ (s : State), .heatDecay ∈ s.falling →
    (∀ n, (s.ch n).heat = 0 ∨ (s.prof n).heatDecay = 0) →
    exec .heatDecayPass s = .next { s with falling := s.falling.erase .heatDecay })

/-! ### Trips (R20, R84) -/

namespace Sys2Proof.Machine

/-- The comparator of a CS output is armed and its current is above the trip level (R20). -/
abbrev Pre.trip (s : State) (n : Out) (current : Nat) : Prop :=
  (s.prof n).mode.isCS = true ∧
    ((s.ch n).state = .power ∨ (s.ch n).state = .hold ∨ (s.ch n).state = .gap) ∧
    (s.prof n).trip < current

/-- The comparator of a flipper output is armed and its current is above the trip level (R84). -/
abbrev Pre.flipTrip (s : State) (f : Flip) (n : Out) (current : Nat) : Prop :=
  s.cfg.flipperOf n = some f ∧ (s.ch n).state = .flipper ∧ (s.prof n).trip < current ∧
    ((s.fl.get f).state = .power ∨ (s.fl.get f).state = .repower ∨
      (s.fl.get f).state = .hold ∧
        ((s.cfg.flippers.get f).hold = some n ∨ (s.cfg.flippers.get f).hold = none))

/-- n and m are the two outputs of a dual-winding flipper, either named first (R84). -/
abbrev Pre.windings (s : State) (f : Flip) (n m : Out) : Prop :=
  n ≠ m ∧
    ((s.cfg.flippers.get f).power = n ∧ (s.cfg.flippers.get f).hold = some m ∨
      (s.cfg.flippers.get f).hold = some n ∧ (s.cfg.flippers.get f).power = m)

/-- A flipper that a trip disabled and took to REST; its health and closed-press count stay (R84). -/
def flipDisabled (r : Flipper) : Flipper :=
  { r with state := .rest, disabled := true, repowers := 0, reduced := false, limitEnd := none }

end Sys2Proof.Machine

/-- FAST_TRIP: FAULT of kind SHORT with a FAULT NOTICE where the comparator is armed and the current is above
the trip level, its hold draw leaving the own standing draw; no effect otherwise (R20, R23, R64).
FLIPPER_TRIP of one armed output: that output enters FAULT of kind SHORT, the flipper goes to REST and is
disabled, and its health and closed-press count are kept; no effect where the comparator is not armed or
the current is not above the level. Both outputs tripping together, either named first, are both faulted,
in the order of the command, which is the model's choice; of two outputs named, the one that trips alone is
faulted alone (R84, R85, log 33). -/
def Obligations.TripsFaultTheOutput : Prop :=
  (∀ (s : State) (n : Out) (i : Fin 63) (current : Nat), Pre.trip s n current →
    Pre.number s.own i →
    exec (.fastTrip n current) s = .next (faultTaken s i n .short 1)) ∧
  (∀ (s : State) (n : Out) (current : Nat), ¬ Pre.trip s n current →
    exec (.fastTrip n current) s = .next s) ∧
  (∀ (s : State) (f : Flip) (n : Out) (i : Fin 63) (current : Nat), Pre.flipTrip s f n current →
     Pre.number s.own i →
     exec (.flipperTrip n current none) s = .next
       (faultTaken { s with fl := s.fl.set f (flipDisabled (s.fl.get f)) } i n .short 1)) ∧
  (∀ (s : State) (f : Flip) (n m : Out) (i : Fin 63) (current other : Nat),
    Pre.flipTrip s f n current → Pre.flipTrip s f m other →
    Pre.windings s f n m → Pre.number s.own i →
    exec (.flipperTrip n current (some other)) s = .next
      (faultTaken (faultTaken { s with fl := s.fl.set f (flipDisabled (s.fl.get f)) } i n .short 1)
        i m .short 1)) ∧
  (∀ (s : State) (n : Out) (current : Nat), (∀ f, ¬ Pre.flipTrip s f n current) →
    exec (.flipperTrip n current none) s = .next s) ∧
  (∀ (s : State) (f : Flip) (n m : Out) (i : Fin 63) (current other : Nat), Pre.windings s f n m →
    s.cfg.flipperOf n = some f → s.cfg.flipperOf m = some f → Pre.number s.own i →
    (¬ Pre.flipTrip s f n current → ¬ Pre.flipTrip s f m other →
      exec (.flipperTrip n current (some other)) s = .next s) ∧
    (Pre.flipTrip s f n current → ¬ Pre.flipTrip s f m other →
      exec (.flipperTrip n current (some other)) s = .next
        (faultTaken { s with fl := s.fl.set f (flipDisabled (s.fl.get f)) } i n .short 1)) ∧
    (¬ Pre.flipTrip s f n current → Pre.flipTrip s f m other →
      exec (.flipperTrip n current (some other)) s = .next
        (faultTaken { s with fl := s.fl.set f (flipDisabled (s.fl.get f)) } i m .short 1)))

/-! ### The draw budget (Chapter 3) -/

/-- Every frame received to completion: the bus goes to INTERFRAME, REC falls by one and the link state is
decided anew (PASSIVE from 96 of either count, SILENT from a TEC of 192), and its source's record is
present and heard now, where DB keeps a view and the source is another station; for a frame with no row of
its own there is no more (R50, R137, R139, R155, R156). -/
def Obligations.HeardFramesRenewTheirSource : Prop :=
  ∀ (s : State) (kind : BitVec 5) (f : Heard), s.canReceive = true →
    ∃ t, exec (.heardFrame kind f) s = .next t ∧ t = heard s f ∧
      t = { s with lc := t.lc, db := t.db } ∧ t.db = { s.db with standing := t.db.standing } ∧
      t.lc = { s.lc with
        phase := .interframe, recRun := 0, rx := none, REC := s.lc.REC - 1
        state := linkStateAt s.lc.state s.lc.TEC (s.lc.REC - 1) } ∧
      (∀ i : Fin 63, s.viewing = true ∧ f.source.toNat = i.val ∧ f.source ≠ s.own →
        t.db.standing.get i = { s.db.standing.get i with lastHeard := s.tick, present := true }) ∧
      (∀ i : Fin 63, s.viewing = false ∨ f.source.toNat ≠ i.val ∨ f.source = s.own →
        t.db.standing.get i = s.db.standing.get i)

namespace Sys2Proof.Machine

/-- A CLAIM of another station whose fields lie in their ranges (R59). -/
abbrev Pre.claimHeard (s : State) (f : Heard) (n : Out) (d duration : Nat) : Prop :=
  s.canReceive = true ∧ s.viewing = true ∧ 5 ≤ f.payload.length ∧
    (1 ≤ f.prio.toNat ∧ f.prio.toNat ≤ 3) ∧ f.source.toNat ≤ 62 ∧
    pByte f.payload 1 = n.val ∧ pWord f.payload 2 = d ∧ (1 ≤ d ∧ d ≤ 4095) ∧
    pWord f.payload 4 = duration ∧ 1 ≤ duration

/-- The fields of a CLAIM lie in their ranges (R59). -/
abbrev ClaimFields (f : Heard) : Prop :=
  5 ≤ f.payload.length ∧ (1 ≤ f.prio.toNat ∧ f.prio.toNat ≤ 3) ∧ pByte f.payload 1 ≤ 15 ∧
    (1 ≤ pWord f.payload 2 ∧ pWord f.payload 2 ≤ 4095) ∧ 1 ≤ pWord f.payload 4 ∧
    f.source.toNat ≤ 62

/-- Entry `e` is merged into before `x`: more ticks to run, then the lower source, the lower output,
not withdrawn, the smaller draw (R48). -/
def MergesBefore (now : Tick) (e x : DrawEntry) : Prop :=
  x.left now < e.left now ∨ x.left now = e.left now ∧
    (e.source < x.source ∨ e.source = x.source ∧
      (e.output < x.output ∨ e.output = x.output ∧
        (e.withdrawn = false ∧ x.withdrawn = true ∨
          e.withdrawn = x.withdrawn ∧ e.draw ≤ x.draw)))

end Sys2Proof.Machine

/-- CLAIM_HEARD: a claim that passes against the view adds an entry that expires its duration later; one
that fails, one whose fields are not in their ranges, and one heard where DB keeps no view is a heard frame
and no more (R55, R59, R70). The view total is the sum of the draw table and of the
present standing draws (R52). An entry added to the draw table: a new one while it holds fewer than 24; at
24 the entry with the most ticks to run takes the draw, and every other entry is kept (R46, R48). -/
def Obligations.HeardClaimsJoinTheView : Prop :=
  (∀ (s : State) (f : Heard) (n : Out) (d duration : Nat), Pre.claimHeard s f n d duration →
    exec (.claimHeard f) s = .next
      (let entry : DrawEntry := ⟨f.source, n, d, s.tick + BitVec.ofNat 32 duration, false⟩
      if Passes (viewOf (heard s f)) d (ceilingOf (heard s f) f.prio.toNat) then
        { heard s f with db.table := addEntry s.tick entry s.db.table }
      else heard s f)) ∧
  (∀ (s : State) (f : Heard), s.canReceive = true → s.viewing = false ∨ ¬ ClaimFields f →
    exec (.claimHeard f) s = .next (heard s f)) ∧
  (∀ (s : State), s.db.viewTotal = viewOf s) ∧
  (∀ (now : Tick) (new : DrawEntry) (table : List DrawEntry),
    (table.length < 24 → addEntry now new table = table ++ [new]) ∧
    (table.length = 24 → ∃ before e rest, table = before ++ e :: rest ∧
      (∀ x ∈ table, MergesBefore now e x) ∧
      addEntry now new table = before ++ { e with
          draw := min 4095 (e.draw + new.draw)
          expiry := if e.left now < new.left now then new.expiry else e.expiry
          withdrawn := e.withdrawn && new.withdrawn } :: rest))

namespace Sys2Proof.Machine

/-- A STANDING frame of another station, long enough (R66). -/
abbrev Pre.standing (s : State) (f : Heard) (i : Fin 63) (d : Nat) : Prop :=
  s.canReceive = true ∧ s.viewing = true ∧ f.source.toNat = i.val ∧ f.source ≠ s.own ∧
    2 ≤ f.payload.length ∧ d = min 4095 (pWord f.payload 1)

end Sys2Proof.Machine

/-- STANDING_HEARD sets the source's record; a fall of a present record is a view decrease, which
clears the waits-for-decrease flags and brings a selection (R53, R66). A frame too short for its draw, of
the own number or of source 63, or heard where DB keeps no view, is a heard frame and no more (R49, R66,
R70). -/
def Obligations.StandingFramesSetTheRecord : Prop :=
  (∀ (s : State) (f : Heard) (i : Fin 63) (d : Nat), Pre.standing s f i d →
    ¬ ((s.db.standing.get i).present = true ∧ d < (s.db.standing.get i).draw) →
    exec (.standingHeard f) s = .next
      { heard s f with db.standing := s.db.standing.set i ⟨d, s.tick, true⟩ }) ∧
  (∀ (s : State) (f : Heard) (i : Fin 63) (d : Nat), Pre.standing s f i d →
    (s.db.standing.get i).present = true → d < (s.db.standing.get i).draw →
    exec (.standingHeard f) s = .next (decreased
      { heard s f with db.standing := s.db.standing.set i ⟨d, s.tick, true⟩ })) ∧
  (∀ (s : State) (f : Heard), s.canReceive = true →
    s.viewing = false ∨ f.payload.length < 2 ∨ f.source = s.own ∨ f.source = 63 →
    exec (.standingHeard f) s = .next (heard s f))

namespace Sys2Proof.Machine

/-- A present record, not the own one, unheard for 10000 ticks (R51). -/
abbrev Pre.ageing (s : State) (i : Fin 63) : Prop :=
  s.viewing = true ∧ (s.db.standing.get i).present = true ∧ s.own.toNat ≠ i.val ∧
    10000 ≤ (s.tick - (s.db.standing.get i).lastHeard).toNat

/-- The refresh timer runs out in RUN and NORMAL (R65). -/
abbrev Pre.refresh (s : State) (due : Tick) : Prop :=
  s.db.refresh = some due ∧ reached s.tick due = true ∧ s.sl.station = .run ∧
    s.isolated = false

end Sys2Proof.Machine

/-- AGEING_OUT sets the record's standing draw to 0, clears its present flag and is a view decrease
whatever the draw was. A record that is the own one, is not present, is younger than 10000 ticks, or was
heard at this instant is not aged. A frame taken after the ageing-out marks the record present, with the
draw of a STANDING frame and 0 otherwise (R51, R53). ENTRY_EXPIRY removes together every entry whose expiry
tick is reached, keeps the others, and is one view decrease (R47, R53). REFRESH_EXPIRY hands a STANDING
frame of the own standing draw and restarts the timer for 2000 ticks (R65). -/
def Obligations.TheViewAgesAndExpires : Prop :=
  (∀ (s : State) (i : Fin 63), Pre.ageing s i →
    exec (.ageingOut i) s = .next (decreased { s with
      db.standing := s.db.standing.set i
        { s.db.standing.get i with draw := 0, present := false } })) ∧
  (∀ (s : State) (i : Fin 63),
    s.own.toNat = i.val ∨ (s.db.standing.get i).present = false ∨
      (s.tick - (s.db.standing.get i).lastHeard).toNat < 10000 ∨
      (s.db.standing.get i).lastHeard = s.tick →
    exec (.ageingOut i) s = .next s) ∧
  (∀ (s t : State) (f : Heard) (i : Fin 63) (d : Nat), Pre.ageing s i →
    exec (.ageingOut i) s = .next t → Pre.standing t f i d →
    exec (.standingHeard f) t = .next
      { heard t f with db.standing := t.db.standing.set i ⟨d, t.tick, true⟩ }) ∧
  (∀ (s t : State) (kind : BitVec 5) (f : Heard) (i : Fin 63), Pre.ageing s i →
    exec (.ageingOut i) s = .next t → t.canReceive = true → f.source.toNat = i.val →
    ∃ u, exec (.heardFrame kind f) t = .next u ∧ u.db.standing.get i = ⟨0, t.tick, true⟩) ∧
  (∀ (s : State), (∃ e ∈ s.db.table, reached s.tick e.expiry = true) →
     exec .entryExpiry s = .next (decreased { s with
       db.table := s.db.table.filter fun e => !reached s.tick e.expiry })) ∧
  (∀ (s : State) (due : Tick), Pre.refresh s due →
     exec .refreshExpiry s = .next { s with
       lc := s.lc.hand (standingOf s s.ownDraw)
       db.refresh := some (s.tick + 2000) })

/-! ### Own frames (Chapters 3 and 9) -/

namespace Sys2Proof.Machine

/-- A frame of this station in slot i is ON WIRE (R147). -/
abbrev Pre.onWire (s : State) (i : Fin 4) (f : Frame) (fails : Nat) : Prop :=
  s.lc.onWireSlot = some i ∧ s.lc.slots.get i = some ⟨f, true, fails⟩

/-- The link state is ACTIVE or PASSIVE, and a transmit error of this kind leaves it one of them: TEC + 8
stays below 192, or the error is an acknowledge error in PASSIVE, which leaves TEC as it is (R155, R156). -/
abbrev Pre.speaking (s : State) (kind : ErrKind) : Prop :=
  s.lc.state ≠ .silent ∧ (s.lc.TEC ≤ 183 ∨ s.lc.state = .passive ∧ kind = .ack)

/-- The own CLAIM frame is ON WIRE and its claim is in flight (R56, R57). -/
abbrev Pre.ownClaim (s : State) (f : Frame) (fails : Nat) (c : Claim) : Prop :=
  Pre.onWire s 0 f fails ∧ f.kind = 3 ∧ s.db.claim = some c

/-- The link controller after an own frame in slot i completed: the slot emptied, and of a shared one
refilled from the queue, the bus in INTERFRAME, TEC lowered by one (R149, R151, R155, R156). -/
def sentBy (lc : Link) (i : Fin 4) : Link :=
  let emptied := { lc with slots := lc.slots.set i none }
  { (if 2 ≤ i.val then advanced emptied else emptied) with
    phase := .interframe
    recRun := 0
    rx := none
    TEC := lc.TEC - 1
    state := linkStateAt lc.state (lc.TEC - 1) lc.REC }

/-- The play state of Table 11-1 for a TILT (kind 1) or GAME (kind 2) frame whose byte is `code`. -/
def playAfter (kind : BitVec 5) (code : Byte) (p : PlayState) : PlayState :=
  if kind = 1 ∧ code = 1 then (match p with | .idle => .tilt | .play => .tilt | q => q)
  else if kind = 1 ∧ code = 2 then .slam
  else if kind = 2 ∧ code = 1 then (match p with | .idle => .play | .tilt => .play | q => q)
  else if kind = 2 ∧ code = 2 then (match p with | .play => .idle | .tilt => .idle | q => q)
  else p

/-- Output n of class 1 or 2 is newly disabled: its class was enabled in the old state (R173). -/
abbrev Gated (s : State) (new : PlayState) (n : Out) : Prop :=
  (s.prof n).mode.isCS = true ∧
    (s.pc.state ≠ .tilt ∧ s.pc.state ≠ .slam ∧ (s.prof n).cls ≤ 1 ∧ (new = .tilt ∨ new = .slam) ∨
      s.pc.state ≠ .slam ∧ (s.prof n).cls = 2 ∧ new = .slam)

/-- The work of an output that becomes disabled is ended (R173): its pulse, hold or gap is cut to COOL, or
OFF with a cool time of 0, and an output in QUEUED goes to OFF. -/
def gatedChan (s : State) (n : Out) (c : Channel) : Channel :=
  { (match c.state with
      | .power => if (s.prof n).cool = 0 then offed c else cooled s.tick (s.prof n).cool c
      | .hold => if (s.prof n).cool = 0 then offed c else cooled s.tick (s.prof n).cool c
      | .gap => if (s.prof n).cool = 0 then offed c else cooled s.tick (s.prof n).cool c
      | .queued => offed c
      | _ => c) with
    repeats := 0, holdWanted := false, train := none }

/-- Output n is newly disabled while in QUEUED. -/
abbrev GatedEntry (s : State) (new : PlayState) (n : Out) : Prop :=
  Gated s new n ∧ (s.ch n).state = .queued

/-- The newly disabled outputs ended, their entries gone, a claim in flight for one withdrawn (R63,
R173). -/
def gatedOff (s : State) (new : PlayState) : State :=
  let t := { s with cs := { s.cs with
    queue := s.cs.queue.filter fun e => ¬ GatedEntry s new e.output
    chan := s.cs.chan.mapIdx fun n c => if Gated s new n then gatedChan s n c else c } }
  match s.db.claim with
  | some c => if GatedEntry s new c.output then withdrawnFor t c.output else t
  | none => t

/-- Every flipper in REST (R82, R83). -/
def rested (s : State) : State :=
  { s with fl := s.fl.mapIdx fun _ r => if r.state = .rest then r else
      { r with state := .rest, repowers := 0, reduced := false, limitEnd := none } }

/-- The tilt-group lamps dark (R122). -/
def darkened (s : State) : State :=
  { s with lp := { s.lp with lamps := s.lp.lamps.mapIdx fun _ r =>
      if r.tiltGroup then { r with duty := 0, step := 0, left := 0, lit := false } else r } }

/-- PC has taken a TILT (kind 1) or GAME (kind 2) frame whose byte is `code`, in RUN: the play state is
that of Table 11-1, and a GAME clears the stopped flag. Without a change of either nothing else moves; a
change of the stopped flag alone brings a selection; a change of the play state ends the work of the
outputs it newly disables, with the own standing draw, rests every flipper unless it is to PLAY, darkens
the tilt-group lamps in TILT and SLAM, and brings a selection (R12, R64, R83, R122, R171, R173). `i` is the
own record. -/
def playMoved (s : State) (i : Fin 63) (kind : BitVec 5) (code : Byte) : State :=
  let new := playAfter kind code s.pc.state
  let moved (t : State) : State := { t with pc := { t.pc with
    state := new, stopped := if kind = 2 then false else s.pc.stopped } }
  if new = s.pc.state then
    if kind = 2 ∧ s.pc.stopped = true then select (moved s) else moved s
  else
    let t := restood (moved (gatedOff s new)) i
    let t := if new = .play then t else rested t
    select (if new = .tilt ∨ new = .slam then darkened t else t)

/-- The codes of Table 12-2 for TILT and GAME. -/
abbrev Assigned (payload : List Byte) (code : Byte) : Prop :=
  payload.head? = some code ∧ (code = 1 ∨ code = 2)

/-- The first key of an EVENT frame (R164). -/
def keyOf (source : BitVec 6) (payload : List Byte) : BitVec 16 :=
  BitVec.ofNat 16 (source.toNat * 1024 + pByte payload 2 * 512 + pByte payload 3)

/-- Filter `g` names action `a` for a key (R165): a LIST filter by its first value or else its second. -/
def listNames (key : BitVec 16) (a : Fin 32) (g : Filter) : Prop :=
  ∃ v x w y, g = .list v x w y ∧ (key = v ∧ a = x ∨ key ≠ v ∧ key = w ∧ a = y)

/-- Filter `g` is a MASK filter that names action `a` for a key (R165). -/
def maskNames (key : BitVec 16) (a : Fin 32) (g : Filter) : Prop :=
  ∃ v m, g = .mask v m a ∧ key &&& m = v &&& m

/-- The unmatched counter raised (R169). -/
def unmatchedCounted (s : State) : State :=
  { s with er.unmatched := min 65535 (s.er.unmatched + 1) }

/-- ER has taken an EVENT frame of a station (R164, R165, R166): outside RUN, or shorter than 3 bytes, it
is not matched; a bad edge field, or a key that no filter matches, raises the unmatched counter; else the
first LIST filter that names the key runs its action, and where none does the first MASK filter. -/
def Routed (s t : State) (source : BitVec 6) (payload : List Byte) : Prop :=
  let key := keyOf source payload
  (s.sl.station ≠ .run ∨ payload.length < 3 → t = s) ∧
  (s.sl.station = .run → 3 ≤ payload.length → 2 ≤ pByte payload 2 → t = unmatchedCounted s) ∧
  (s.sl.station = .run → 3 ≤ payload.length → pByte payload 2 ≤ 1 →
    ((∀ j a, ¬ listNames key a (s.cfg.filters.get j) ∧ ¬ maskNames key a (s.cfg.filters.get j)) →
      t = unmatchedCounted s) ∧
    (∀ i a, listNames key a (s.cfg.filters.get i) →
      (∀ j, j < i → ∀ x, ¬ listNames key x (s.cfg.filters.get j)) →
      t = runAction s (s.cfg.actions.get a)) ∧
    (∀ i a, (∀ j x, ¬ listNames key x (s.cfg.filters.get j)) →
      maskNames key a (s.cfg.filters.get i) →
      (∀ j, j < i → ∀ x, ¬ maskNames key x (s.cfg.filters.get j)) →
      t = runAction s (s.cfg.actions.get a)))

/-- A frame that is not handed on at its completion: STANDING, FAULT NOTICE, STATUS or BEAT (R140,
R151). -/
abbrev Pre.plainOwn (f : Frame) : Prop := f.kind = 4 ∨ f.kind = 5 ∨ f.kind = 6 ∨ f.kind = 0

end Sys2Proof.Machine

/-- OWN_FRAME_COMPLETE of a CLAIM decides it: a pass is a grant, a failure a deny, and a withdrawn claim
starts no pulse and counts no deny; its slot is empty, TEC falls by one, and a selection follows. The
grant of a BURST lowers remaining, sets the burst figures and starts the first pulse (R12, R15, R58, R63,
R92, R93, R151, R155). -/
def Obligations.OwnClaimIsDecidedAtCompletion : Prop :=
  ∀ (s : State) (f : Frame) (fails : Nat) (c : Claim),
    Pre.ownClaim s f fails c → s.lc.state ≠ .silent →
    exec .ownFrameComplete s = .next (select
      (afterDecision { s with lc := sentBy s.lc 0 } c s.tick))

namespace Sys2Proof.Machine

/-- A frame of slot 1, 2 or 3 is ON WIRE, of a station that is not SILENT. -/
abbrev Pre.sending (s : State) (i : Fin 4) (f : Frame) (fails : Nat) : Prop :=
  1 ≤ i.val ∧ Pre.onWire s i f fails ∧ s.lc.state ≠ .silent

end Sys2Proof.Machine

/-- OWN_FRAME_COMPLETE of a frame in slot 1, 2 or 3 empties its slot, moves the frames at the head of the
outgoing queue into the empty shared slots, and lowers TEC (R149, R151, R155). A STANDING, FAULT NOTICE,
STATUS or BEAT is handed to no block; a TILT or GAME is taken by PC in RUN as a heard one is, and nothing
of it is outside RUN or with a code not assigned; an EVENT is routed as a heard one is (R140, R164, R171).
That the queue moves up before the frame is handed on is the model's choice (log 37). -/
def Obligations.OwnFramesAreHandedOnAtCompletion : Prop :=
  (∀ (s : State) (i : Fin 4) (f : Frame) (fails : Nat), Pre.sending s i f fails →
    Pre.plainOwn f →
    exec .ownFrameComplete s = .next { s with lc := sentBy s.lc i }) ∧
  (∀ (s : State) (i : Fin 4) (f : Frame) (fails : Nat) (code : Byte) (j : Fin 63),
    Pre.sending s i f fails → f.kind = 1 ∨ f.kind = 2 → Assigned f.payload code →
    s.sl.station = .run → Pre.number s.own j →
    exec .ownFrameComplete s = .next (playMoved { s with lc := sentBy s.lc i } j f.kind code)) ∧
  (∀ (s : State) (i : Fin 4) (f : Frame) (fails : Nat), Pre.sending s i f fails →
    f.kind = 1 ∨ f.kind = 2 → s.sl.station ≠ .run ∨ (∀ code, ¬ Assigned f.payload code) →
    exec .ownFrameComplete s = .next { s with lc := sentBy s.lc i }) ∧
  (∀ (s : State) (i : Fin 4) (f : Frame) (fails : Nat), Pre.sending s i f fails → f.kind = 8 →
    ∃ t, exec .ownFrameComplete s = .next t ∧
      Routed { s with lc := sentBy s.lc i } t s.own f.payload)

namespace Sys2Proof.Machine

/-- LC may begin a start-of-frame, and slot i holds the WAITING frame with the lowest arbitration
field, the lowest slot among equals (R132, R150). -/
abbrev Pre.offer (s : State) (i : Fin 4) (f : Frame) (fails : Nat) : Prop :=
  s.lc.started = true ∧ s.lc.phase = .idle ∧ s.lc.state ≠ .silent ∧ s.lc.stopLeft = 0 ∧
    s.lc.resetLeft = 0 ∧ s.lc.slots.get i = some ⟨f, false, fails⟩ ∧
    ∀ (j : Fin 4), ∀ g ∈ s.lc.slots.get j, g.onWire = false →
      f.arbitration ≤ g.frame.arbitration ∧ (g.frame.arbitration = f.arbitration → i ≤ j)

/-- A newer STANDING frame, or STATUS frame of the same page and part, is held unstarted beside the frame
of slot i (R148). -/
def Superseded (lc : Link) (i : Fin 4) (f : Frame) : Prop :=
  let newer (g : Frame) : Prop := f.kind = 4 ∧ g.kind = 4 ∨
    f.kind = 6 ∧ g.kind = 6 ∧ f.payload.head? = g.payload.head? ∧
      (f.payload.length = 1 ↔ g.payload.length = 1)
  (∃ j : Fin 4, 2 ≤ j.val ∧ j ≠ i ∧ ∃ sl ∈ lc.slots.get j, sl.onWire = false ∧ newer sl.frame) ∨
    ∃ g ∈ lc.outq, newer g

/-- The link controller after a frame of slot 2 or 3 that ended without completion: WAITING again with an
acknowledge-failure count, or discarded where it is superseded, its place taken from the queue (R148,
R149). -/
def Retried (lc t : Link) (i : Fin 4) (f : Frame) (fails : Nat) : Prop :=
  (¬ Superseded lc i f → t = { lc with slots := lc.slots.set i (some ⟨f, false, fails⟩) }) ∧
    (Superseded lc i f → t = advanced { lc with slots := lc.slots.set i none })

end Sys2Proof.Machine

/-- FRAME_OFFER puts the WAITING frame of the lowest arbitration field ON WIRE, with its start-of-frame bit
taken and its timestamps kept; nothing else changes (R132, R138, R150). ARBITRATION_LOST returns the frame
to WAITING, its acknowledge-failure count kept, and the rest of the frame is received; a shared frame that
a newer one supersedes is discarded; a withdrawn claim is emptied and cleared instead, and a selection
follows (R12, R57, R63, R126, R133, R148, R150). -/
def Obligations.FramesAreOfferedAndMayLose : Prop :=
  (∀ (s : State) (i : Fin 4) (f : Frame) (fails : Nat), Pre.offer s i f fails →
    exec .frameOffer s = .next { s with lc := { s.lc with
      slots := s.lc.slots.set i (some ⟨f, true, fails⟩)
      phase := .frame
      rx := some ⟨true, s.tick, s.lp.phase, s.lp.beat, [false], false, 1, none, false⟩ } }) ∧
  (∀ (s : State) (i : Fin 4) (f : Frame) (fails : Nat), Pre.onWire s i f fails → i.val ≤ 1 →
    (i.val = 0 → ∀ c ∈ s.db.claim, c.withdrawn = false) →
    exec .arbitrationLost s = .next { s with lc := { s.lc with
      slots := s.lc.slots.set i (some ⟨f, false, fails⟩)
      rx := s.lc.rx.map fun p => { p with transmitting := false } } }) ∧
  (∀ (s : State) (i : Fin 4) (f : Frame) (fails : Nat), Pre.onWire s i f fails → 2 ≤ i.val →
    ∃ lc, Retried { s.lc with rx := s.lc.rx.map fun p => { p with transmitting := false } } lc i f
        fails ∧
      exec .arbitrationLost s = .next { s with lc := lc }) ∧
  (∀ (s : State) (f : Frame) (fails : Nat) (c : Claim), Pre.ownClaim s f fails c →
    c.withdrawn = true →
    exec .arbitrationLost s = .next (select { s with
      db.claim := none
      lc := { s.lc with
        slots := s.lc.slots.set 0 none
        rx := s.lc.rx.map fun p => { p with transmitting := false } } }))

namespace Sys2Proof.Machine

/-- TEC after a transmit error (R155). -/
def tecAfter (lc : Link) (kind : ErrKind) : Nat :=
  if lc.state = .passive ∧ kind = .ack then lc.TEC else min 255 (lc.TEC + 8)

/-- The link controller with a transmit error counted (R155, R156), its frame no longer read: in the
error delimiter where its bits have not gone there already (R142). -/
def errored (lc : Link) (kind : ErrKind) : Link :=
  let discarded := match lc.rx with
    | none => lc
    | some p => if p.checkBad then lc
      else { lc with phase := .errorDelimiter, recRun := 1, rx := none }
  { discarded with
    TEC := tecAfter lc kind
    state := if lc.state = .passive ∧ kind = .ack then .passive
      else linkStateAt lc.state (tecAfter lc kind) lc.REC }

end Sys2Proof.Machine

/-- TRANSMIT_ERROR of a frame in slot 1, 2 or 3 that does not bring the station to SILENT. A BEAT is given
up. A shared frame waits again: a bit error or the like sets its acknowledge-failure count to 0, an
acknowledge error raises it. At the 8th in a row it is dropped, the queue moves up and the tx-drop counter
rises; PC then takes the change of a TILT or GAME of this station so given up, in RUN. TEC rises by 8, but
not for an acknowledge error in PASSIVE, which never brings SILENT whatever TEC is (R126, R148, R149, R152, R154, R155, R172). That LC moves the queue
up before PC takes that change is the model's choice (log 37). -/
def Obligations.SharedFrameErrorIsRetriedOrDropped : Prop :=
  (∀ (s : State) (f : Frame) (fails : Nat) (kind : ErrKind) (found : Tick),
    Pre.onWire s 1 f fails → Pre.speaking s kind →
    exec (.transmitError kind found) s = .next { s with
      lc := { errored s.lc kind with slots := s.lc.slots.set 1 none } }) ∧
  (∀ (s : State) (i : Fin 4) (f : Frame) (fails : Nat) (kind : ErrKind) (found : Tick),
    2 ≤ i.val → Pre.onWire s i f fails → Pre.speaking s kind → kind ≠ .ack ∨ fails < 7 →
    ∃ lc, Retried (errored s.lc kind) lc i f (if kind = .ack then fails + 1 else 0) ∧
      exec (.transmitError kind found) s = .next { s with lc := lc }) ∧
  (∀ (s : State) (i : Fin 4) (f : Frame) (fails : Nat) (found : Tick),
    2 ≤ i.val → Pre.onWire s i f fails → 7 ≤ fails → Pre.speaking s .ack →
    (let u := { s with lc := { advanced { errored s.lc .ack with
        slots := s.lc.slots.set i none } with txDrop := min 65535 (s.lc.txDrop + 1) } }
    ((f.kind ≠ 1 ∧ f.kind ≠ 2 ∨ s.sl.station ≠ .run ∨ (∀ code, ¬ Assigned f.payload code)) →
      exec (.transmitError .ack found) s = .next u) ∧
    (∀ (code : Byte) (j : Fin 63), f.kind = 1 ∨ f.kind = 2 → s.sl.station = .run →
      Assigned f.payload code → Pre.number s.own j →
      exec (.transmitError .ack found) s = .next (playMoved u j f.kind code))))

/-- TRANSMIT_ERROR of an own CLAIM that does not bring the station to SILENT: an acknowledge error alone
decides the claim, its times counted from the tick the error was found, in PASSIVE whatever TEC is; any
other error returns its entry, with nothing decided and no deny counted. A selection follows (R12, R13, R61,
R62, R63, R155). That the budget
test and the heat are those of the instant the error settles is the model's reading (log 9). -/
def Obligations.OwnClaimErrorIsDecidedOrReturned : Prop :=
  (∀ (s : State) (f : Frame) (fails : Nat) (c : Claim) (found : Tick),
    Pre.ownClaim s f fails c → Pre.speaking s .ack →
    exec (.transmitError .ack found) s = .next (select (afterDecision { s with
      lc := { errored s.lc .ack with slots := s.lc.slots.set 0 none } } c found))) ∧
  (∀ (s : State) (f : Frame) (fails : Nat) (c : Claim) (kind : ErrKind) (found : Tick),
    Pre.ownClaim s f fails c → Pre.speaking s kind → kind ≠ .ack →
    exec (.transmitError kind found) s = .next (select { s with
      lc := { errored s.lc kind with slots := s.lc.slots.set 0 none }
      db := { s.db with claim := none }
      cs := { s.cs with queue := if c.withdrawn then s.cs.queue else s.cs.queue.map fun e =>
        if e.output = c.output then { e with inFlight := false } else e } }))

namespace Sys2Proof.Machine

/-- An error in an own frame carries TEC to 192 or above (R156, R158); one in slot 0 is in the claim in
flight. -/
abbrev Pre.silencing (s : State) (i : Fin 4) (f : Frame) (fails : Nat) (kind : ErrKind) : Prop :=
  Pre.onWire s i f fails ∧
    (s.lc.state = .passive ∧ kind ≠ .ack ∨ s.lc.state = .active) ∧ 184 ≤ s.lc.TEC

/-- The kind and code of a TILT or GAME frame with a code of Table 12-2. -/
def playCarried (f : Frame) : Option (BitVec 5 × Byte) :=
  match f.payload.head? with
  | some code => if (f.kind = 1 ∨ f.kind = 2) ∧ (code = 1 ∨ code = 2) then some (f.kind, code) else none
  | none => none

/-- The changes of the own TILT and GAME frames in the shared slots and the outgoing queue (R158,
R172). -/
def playsHeld (lc : Link) : List (BitVec 5 × Byte) :=
  (([2, 3].filterMap fun i => (lc.slots.get i).map (·.frame)) ++ lc.outq).filterMap playCarried

/-- The claim in flight cleared, its entry returned unless it was withdrawn, no deny counted (R62, R67). -/
def claimReturned (s : State) : State :=
  match s.db.claim with
  | none => s
  | some c =>
    { s with
      db := { s.db with claim := none }
      cs := { s.cs with queue := if c.withdrawn then s.cs.queue else s.cs.queue.map fun e =>
        if e.output = c.output then { e with inFlight := false } else e } }

/-- An own CLAIM that ended in an acknowledge error alone is decided, its times counted from the tick of
the finding (R61). -/
def ackDecided (s : State) (i : Fin 4) (kind : ErrKind) (found : Tick) : State :=
  match s.db.claim with
  | some c => if i = 0 ∧ kind = .ack then afterDecision s c found else s
  | none => s

/-- The station that an error in slot i took to SILENT, before PC takes the changes of the play frames it
held and before the selection: the claim decided or returned, slots and queue cleared, the refresh timer
and a STOP pattern under way stopped, TEC kept at the value that brought it, recovery at 0 (R61, R62,
R67, R156, R157, R158). -/
def silenced (s : State) (i : Fin 4) (fails : Nat) (kind : ErrKind) (found : Tick) : State :=
  let t := claimReturned (ackDecided s i kind found)
  { t with
    db := { t.db with refresh := none }
    lc := { errored s.lc kind with
      slots := .fill 4 none, outq := [], stopLeft := 0, recovery := 0, partialRun := 0
      txDrop := if kind = .ack ∧ 7 ≤ fails ∧ 2 ≤ i.val then min 65535 (s.lc.txDrop + 1)
        else s.lc.txDrop } }

/-- PC takes the change of an own frame given up, or (none) a selection is made. -/
def givenUp (j : Fin 63) (t : State) : Option (BitVec 5 × Byte) → State
  | none => select t
  | some (kind, code) => playMoved t j kind code

end Sys2Proof.Machine

/-- The entry to SILENT by an error in an own frame of any slot: every slot and the queue are cleared, TEC
keeps the value that brought it, recovery starts at 0, the refresh timer stops, and a selection follows in
the budget mode ISOLATED. The claim in flight is cleared and its entry returned, an own CLAIM whose own
error it was as well (R62), but one that ended in an acknowledge error alone is decided first (R61). In
RUN PC takes the change of each own TILT and GAME frame given up: those held, and one dropped by this very
error. Those changes and the selection are taken in an order that is free (R12, R67, R152, R156, R158,
R172). The model's choices: that order (log 13, log 2), the decision on the ceilings of before the entry
(log 9), a STOP pattern under way driven no further and taken by no block (log 39, log 40). -/
def Obligations.SilentClearsEverySlot : Prop :=
  (∀ (s : State) (i : Fin 4) (f : Frame) (fails : Nat) (kind : ErrKind) (found : Tick),
    Pre.silencing s i f fails kind → playsHeld s.lc = [] →
    exec (.transmitError kind found) s = .next (select (silenced s i fails kind found))) ∧
  (∀ (s : State) (i : Fin 4) (f : Frame) (fails : Nat) (kind : ErrKind) (found : Tick) (j : Fin 63),
    Pre.silencing s i f fails kind → playsHeld s.lc ≠ [] → s.sl.station = .run →
    Pre.number s.own j →
    ∃ (order : List (Option (BitVec 5 × Byte))) (p : Nat),
      order.Perm (none :: (playsHeld s.lc).map some) ∧
      exec (.transmitError kind found) s =
        .next (order.foldl (givenUp j) { silenced s i fails kind found with picks := p }))

/-- RECEIVE_ERROR raises REC by one and decides the link state anew, PASSIVE from 96 of either count and
SILENT from a TEC of 192; every block but LC is left (R155, R156). RECOVERY_COMPLETE: both counts are 0,
the link state is ACTIVE, in RUN DB hands its STANDING frame and starts the refresh timer, and a selection
follows in NORMAL (R12, R65, R67, R159). -/
def Obligations.ErrorCountsRiseAndRecover : Prop :=
  (∀ (s : State) (kind : ErrKind), s.canReceive = true →
     ∃ t, exec (.receiveError kind) s = .next t ∧ t = { s with lc := t.lc } ∧
       t.lc.REC = min 255 (s.lc.REC + 1) ∧ t.lc.TEC = s.lc.TEC ∧ t.lc.slots = s.lc.slots ∧
       t.lc.outq = s.lc.outq ∧
       t.lc.state = linkStateAt s.lc.state s.lc.TEC (min 255 (s.lc.REC + 1))) ∧
  (∀ (s : State), s.lc.state = .silent →
     exec .recoveryComplete s = .next (select (announced { s with
       lc := { s.lc with state := .active, TEC := 0, REC := 0, recovery := 0, partialRun := 0 } }
       s.ownDraw)))

namespace Sys2Proof.Machine

/-- The station after PC took the table stop in RUN (R69, R175): stopped; every CS output not in FAULT is
OFF without work or train, its heat and consecutive-open count kept; the queue and the draw table are
empty, every standing draw is 0 with its present flag and last-heard tick kept; every flipper is in REST.
The claim in flight is withdrawn (R63), and an own standing draw that was above 0 is announced. -/
def tableStopped (s : State) : State :=
  let t := { s with
    pc := { s.pc with stopped := true }
    cs := { s.cs with queue := [], chan := s.cs.chan.mapIdx fun n c =>
      if (s.prof n).mode.isCS = true ∧ c.state ≠ .fault then
        { offed c with repeats := 0, holdWanted := false, train := none } else c } }
  let t := match s.db.claim with | some c => withdrawnFor t c.output | none => t
  let t := rested { t with db := { t.db with
    table := []
    standing := s.db.standing.mapIdx fun _ r => { r with draw := 0 } } }
  if 0 < s.ownDraw then announced t 0 else t

/-- The own frame ON WIRE has ended in an error found at the recessive bit before the dominant run, so the
STOP pattern does not cut it short (R142, R143, R145). -/
abbrev EndedBefore (lc : Link) : Prop :=
  ∃ e ∈ lc.err, e.recessive = true ∧ e.transmit = true

/-- The link controller at the STOP pattern (R143, R145, R153): a frame ON WIRE in slot 0 or 1 is emptied,
one in slot 2 or 3 waits again or is discarded for a newer one, but a frame that has ended in an error
before the run is left to its settling. What was read is dropped, and an error found within the run is
void; the phase is STOP, or INTEGRATING where it was. -/
def StopRead (lc t : Link) : Prop :=
  t = { lc with
    phase := if lc.phase = .integrating then .integrating else .stop
    err := match lc.err with
      | some e => if e.recessive = true then some e else none
      | none => none
    recRun := 0, rx := none, sigLeft := 0, slots := t.slots, outq := t.outq } ∧
    (EndedBefore lc → t.slots = lc.slots ∧ t.outq = lc.outq) ∧
    (¬ EndedBefore lc →
      (∀ i : Fin 4, i.val ≤ 1 → t.slots.get i =
        if ∃ sl ∈ lc.slots.get i, sl.onWire = true then none else lc.slots.get i) ∧
      ((∀ (i : Fin 4), 2 ≤ i.val → ∀ sl ∈ lc.slots.get i, sl.onWire = false) →
        t.outq = lc.outq ∧ ∀ i : Fin 4, 2 ≤ i.val → t.slots.get i = lc.slots.get i) ∧
      (∀ (i : Fin 4) (f : Frame) (fails : Nat), 2 ≤ i.val →
        lc.slots.get i = some ⟨f, true, fails⟩ →
        (∀ j, j ≠ i → ∀ sl ∈ lc.slots.get j, sl.onWire = false) →
        ∃ u, Retried lc u i f fails ∧ t.slots = u.slots ∧ t.outq = u.outq))

/-- The STOP pattern cuts the own CLAIM short (R69, R145). -/
abbrev ClaimCut (lc : Link) : Prop :=
  ¬ EndedBefore lc ∧ ∃ sl ∈ lc.slots.get 0, sl.onWire = true

end Sys2Proof.Machine

/-- STOP_PATTERN in RUN is the table stop of `tableStopped`, with the link controller of `StopRead`; a claim
whose frame it cut short is cleared; the play state, the lamps and both error counts stay (R69, R145, R153,
R175). In JOINING DB's view is cleared and no flag is set; in UNCONFIGURED only the link controller follows
(R175). STOP_PATTERN_END releases the link; INTEGRATING_END takes INTEGRATING to IDLE (R132, R144). The
model's own reading, DEDUCED and marked unsafe: that an error found at the recessive bit before the run, and
the own frame that ended in it (`EndedBefore` in `StopRead` and `ClaimCut`), are left to their settling
(R143, R145, log 9). That INTEGRATING is kept is its reading of R132 and R145 (log 11). -/
def Obligations.StopPatternStopsTheTable : Prop :=
  (∀ (s : State), s.lc.started = true → s.sl.station = .run →
    ∃ lc, StopRead s.lc lc ∧ exec .stopPattern s = .next (tableStopped { s with
      lc := lc
      db := { s.db with claim := if ClaimCut s.lc then none else s.db.claim } })) ∧
  (∀ (s : State), s.lc.started = true → s.sl.station = .joining →
    ∃ lc, StopRead s.lc lc ∧ exec .stopPattern s = .next { s with
      lc := lc
      db := { s.db with
        claim := if ClaimCut s.lc then none else s.db.claim
        table := []
        standing := s.db.standing.mapIdx fun _ r => { r with draw := 0 } } }) ∧
  (∀ (s : State), s.lc.started = true → s.sl.station = .unconfigured → s.lc.slots.get 0 = none →
    ∃ lc, StopRead s.lc lc ∧ exec .stopPattern s = .next { s with lc := lc }) ∧
  (∀ (s : State), exec .stopPatternEnd s = .next { s with lc.stopLeft := 0 }) ∧
  (∀ (s : State), s.lc.started = true → s.lc.phase = .integrating →
    exec .integratingEnd s = .next { s with lc := { s.lc with phase := .idle, recRun := 0 } })

/-! ### The link bit by bit (Chapter 8) -/

namespace Sys2Proof.Machine

/-- The next bit is dominant, by another station or by this one's own STOP pattern that reaches the pair,
and makes 24 in a row; nothing else is due, and the own pattern does not end at it (R144, R145). -/
abbrev Pre.lastStopBit (s : State) : Prop :=
  s.lc.started = true ∧ s.pending = [] ∧ s.bitDue = true ∧ s.lc.domRun = 23 ∧
    (s.lines.wire.dominant = true ∨ 0 < s.lc.stopLeft ∧ s.lines.wire.cut = false) ∧
    s.lc.stopLeft ≠ 1 ∧ dueCommands s = []

end Sys2Proof.Machine

/-- The 24th dominant bit in a row, whatever the bus phase, the link state and the station state,
makes the next step the STOP pattern's (R145). That what a bit brings about is a command put in the queue
and taken at the next step, and that the link's levels are an input list, are the model's choices (log 1,
log 6, log 8). -/
def Obligations.TwentyFourDominantBitsAreTheStop : Prop :=
  ∀ (s : State), Pre.lastStopBit s →
    ∃ t, step s = .next t ∧ t.pending = [.stopPattern] ∧ t.lc.domRun = 24

namespace Sys2Proof.Machine

/-- The bit a transmitter of frame f sends next, `p` being the frame as it has sent it so far: a stuff bit
after six equal bits, else the frame's own next bit, and recessive once its check is out (R131, R135). -/
def nextBit (f : Frame) (p : Progress) : Bool :=
  if p.tail.isSome then true
  else if p.stuffNext then !p.runLevel
  else f.bits.getD p.bits.length true

/-- The low `w` bits of a number, the most significant first (R131). -/
def msbFirst (w n : Nat) : List Bool := (List.range w).map fun k => decide (n / 2 ^ (w - 1 - k) % 2 = 1)

/-- The bits of a frame that its check covers, in the order they are sent: priority, kind, source, the
dominant format bit, length, payload (Table 8-1, R131, R136). -/
def coveredBits (f : Frame) : List Bool :=
  msbFirst 3 f.prio.toNat ++ msbFirst 5 f.kind.toNat ++ msbFirst 6 f.source.toNat ++ [false] ++
    msbFirst 4 f.payload.length ++ f.payload.flatMap fun b => msbFirst 8 b.toNat

/-- The check register takes a bit: shifted towards its most significant end, 0 entering, and where the bit
differs from the most significant one, bits 12, 5 and 0 inverted (R136). -/
def registerStep (r : BitVec 16) (b : Bool) : BitVec 16 :=
  let shifted := BitVec.ofNat 16 (2 * r.toNat)
  if b = decide (2 ^ 15 ≤ r.toNat) then shifted
  else shifted ^^^ BitVec.ofNat 16 (2 ^ 12 + 2 ^ 5 + 2 ^ 0)

/-- The check register after a span of bits, from every bit 1 (R136). -/
def registerAfter (bits : List Bool) : BitVec 16 := bits.foldl registerStep (BitVec.ofNat 16 65535)

/-- The bits a frame puts on the wire from a place in it to its last check bit (R131, R135). -/
def wireBits (f : Frame) : Nat → Progress → List Bool
  | 0, _ => []
  | fuel + 1, p =>
    if p.tail.isSome then []
    else
      let b := nextBit f p
      b :: wireBits f fuel ((if p.stuffNext then p.run b else { p with bits := p.bits ++ [b] }.run b).close)

/-- A receiver takes bits one after the other for as long as the frame goes on. -/
def readBits : Progress → List Bool → Option Progress
  | p, [] => some p
  | p, b :: rest => match p.bit true b with
    | .goes q => readBits q rest
    | _ => none

/-- A start-of-frame taken by a receiver. -/
def sofTaken : Progress := ⟨false, 0, 0, 0, [false], false, 1, none, false⟩

end Sys2Proof.Machine

/-- A frame of 0 to 8 bytes put on the wire bit by bit, stuff bits included, is read back as that very
frame: priority, kind, source and payload, its check agreeing, no bit taken as an error; the check
delimiter is next (R131, R134, R135, R136). The bits are those that LC drives for the frame it has ON
WIRE: a dominant start-of-frame, priority, kind, source, the dominant format bit, length, payload and check,
each field the most significant bit first (Table 8-1), the check that of the register of R136, with which a
receiver compares the check it took. -/
def Obligations.FrameReadBackIsTheFrameSent : Prop :=
  (∀ (f : Frame), f.payload.length ≤ 8 →
    ∃ p, readBits sofTaken (wireBits f 200 sofTaken) = some p ∧ p.tail = some 0 ∧
      p.bits = f.bits ∧ p.checkAgrees = true ∧ p.kind = f.kind.toNat ∧
      p.heard = ⟨f.prio, f.source, f.payload⟩) ∧
  (∀ (lc : Link) (f : Frame) (p : Progress), lc.ownFrame = some f →
    lc.frameBit p = nextBit f p) ∧
  (∀ (s : State) (f : Frame) (p : Progress), s.lc.started = true → s.lc.overriding = false →
    s.lc.phase = .frame → s.lc.rx = some p → p.transmitting = true → s.lc.ownFrame = some f →
    driveLevel s = nextBit f p) ∧
  (∀ (f : Frame),
    f.bits = [false] ++ coveredBits f ++ msbFirst 16 (registerAfter (coveredBits f)).toNat) ∧
  (∀ (p : Progress), p.checkAgrees = true ↔
    p.bits.drop (20 + 8 * p.len) =
      msbFirst 16 (registerAfter ((p.bits.drop 1).take (19 + 8 * p.len))).toNat)

namespace Sys2Proof.Machine

/-- What a bit up to the check turns out to be (R133, R134, R135, R141): `sent` by this station, `b`
taken. The place of the bit is the number of bits taken before it, stuff bits not counted: 1 to 14 the
arbitration field, 15 the format bit, 19 the last bit of the length. -/
def fieldFinding (p : Progress) (sent b : Bool) : BitFinding :=
  if p.runLen = 6 then
    if p.transmitting = true ∧ sent ≠ b then .error .bit
    else if b = p.runLevel then .error .stuff
    else .goes (p.run b).close
  else if p.transmitting = true ∧ sent = true ∧ b = false ∧ p.bits.length ≤ 14 then .lost (p.data b)
  else if p.transmitting = true ∧ sent ≠ b then .error .bit
  else if p.bits.length = 15 ∧ b = true then .error .form
  else if p.bits.length = 19 ∧ 9 ≤ (p.data b).len then .error .form
  else .goes (p.data b)

/-- What a bit after the check turns out to be (R136, R137, R141, R142): 0 is the check delimiter, 1 the
acknowledge slot, 2 the acknowledge delimiter, 3 to 9 the end field. -/
def tailFinding (p : Progress) (k : Nat) (b : Bool) : BitFinding :=
  let q := { p with tail := some (k + 1) }
  if k = 1 then if p.transmitting = true ∧ b = true then .error .ack else .goes q
  else if p.checkBad = true then if k = 2 then .signal else .goes q
  else if b = false then .error (if p.transmitting then .bit else .form)
  else if k = 0 ∧ p.transmitting = false ∧ p.checkAgrees = false then
    .badCheck { q with checkBad := true }
  else if 9 ≤ k then .complete
  else .goes q

/-- A frame is in progress as `p`, and LC reads it: no STOP pattern of its own overrides it. -/
abbrev Pre.reading (s : State) (p : Progress) : Prop :=
  s.lc.phase = .frame ∧ s.lc.rx = some p ∧ (p.transmitting = true → s.lc.overriding = false)

/-- The error signal begins at the next bit; in SILENT there is none (R142). -/
def signalled (s : State) : State :=
  { s with lc :=
      if s.lc.state = .silent then { s.lc with phase := .errorDelimiter, recRun := 0, rx := none }
      else { s.lc with phase := .errorSignal, sigLeft := 8, rx := none } }

/-- A frame of another station begins at this bit, with the timestamps of R138 (R132). -/
def frameBegins (s : State) : State :=
  { s with lc := { s.lc with
    phase := .frame
    recRun := 0
    rx := some ⟨false, s.tick, s.lp.phase, s.lp.beat, [false], false, 1, none, false⟩ } }

/-- The bit moves the bus to a phase, or its run of recessive bits, and no more. -/
def busAt (s : State) (phase : BusPhase) (recRun : Nat) : State :=
  { s with lc := { s.lc with phase := phase, recRun := recRun } }

/-- The bits that move LC between the bus phases (R132, R145): the 11th recessive bit in a row ends
INTEGRATING, the 8th ERROR DELIMITER, the 3rd INTERFRAME; a dominant bit sets the count of INTEGRATING and
of ERROR DELIMITER back to 0, and begins a frame in INTERFRAME, and in IDLE where this station offers none;
the first recessive bit after the STOP pattern is the first of ERROR DELIMITER. -/
def BusPhasesCount : Prop :=
  (∀ (s : State) (sent b : Bool), s.lc.phase = .integrating →
    phaseBit s sent b = (busAt s .integrating (if b then s.lc.recRun + 1 else 0),
      if b = true ∧ s.lc.recRun = 10 then [.integratingEnd] else [])) ∧
  (∀ (s : State) (sent b : Bool), s.lc.phase = .errorDelimiter →
    phaseBit s sent b = (if b = false then busAt s .errorDelimiter 0
      else if s.lc.recRun = 7 then busAt s .interframe 0
      else busAt s .errorDelimiter (s.lc.recRun + 1), [])) ∧
  (∀ (s : State) (sent b : Bool), s.lc.phase = .interframe →
    phaseBit s sent b = (if b = false then frameBegins s
      else if s.lc.recRun = 2 then busAt s .idle 0
      else busAt s .interframe (s.lc.recRun + 1), [])) ∧
  (∀ (s : State) (sent b : Bool), s.lc.phase = .idle →
    s.lc.state = .silent ∨ (∀ (i : Fin 4), ∀ sl ∈ s.lc.slots.get i, sl.onWire = true) →
    phaseBit s sent b = (if b = false then frameBegins s else s, [])) ∧
  (∀ (s : State) (sent b : Bool), s.lc.phase = .stop →
    phaseBit s sent b = (if b = false then s else busAt s .errorDelimiter 1, []))

/-- In SILENT, with no drive left over and neither a frame of its own nor a dominant error signal begun
before, the station drives nothing: no start-of-frame, no acknowledge, no error signal (R137, R142,
R157). That such a station drives no STOP pattern, `SilentClearsEverySlot` and `ActionsTakeTheirEffect`
say. -/
def SilentDrivesNothing : Prop :=
  ∀ (s : State), s.lc.state = .silent → s.lc.overriding = false →
    (∀ p ∈ s.lc.rx, p.transmitting = false) → s.lc.sigLeft = 8 ∨ s.lc.sigDominant = false →
    driveLevel s = true

/-- The recovery count and its partial run at a bit (R159): in SILENT a recessive bit lengthens the run, the
12th counts one sequence, and a dominant bit ends the run and keeps the count; in no other state do they
move. The 64th sequence, and nothing else, brings RECOVERY_COMPLETE at its last bit. -/
def RecoveryCounts : Prop :=
  (∀ (lc : Link) (b : Bool), lc.state ≠ .silent → lc.recover b = lc) ∧
  (∀ (lc : Link), lc.state = .silent → lc.recover false = { lc with partialRun := 0 }) ∧
  (∀ (lc : Link), lc.state = .silent → lc.partialRun < 11 →
    lc.recover true = { lc with partialRun := lc.partialRun + 1 }) ∧
  (∀ (lc : Link), lc.state = .silent → lc.partialRun = 11 →
    lc.recover true = { lc with partialRun := 0, recovery := lc.recovery + 1 }) ∧
  (∀ (s : State) (sent b : Bool), s.lc.recovery ≤ 63 → s.lc.partialRun ≤ 11 →
    (readBit s sent b).1.lc.recovery = (s.lc.recover b).recovery ∧
    (readBit s sent b).1.lc.partialRun = (s.lc.recover b).partialRun ∧
    (.recoveryComplete ∈ (readBit s sent b).2 ↔
      b = true ∧ s.lc.state = .silent ∧ s.lc.recovery = 63 ∧ s.lc.partialRun = 11))

/-- The link controller as a bit of level `b` is taken: recovery counted (R159), an error found earlier
settled at a recessive bit (R143), the run of dominant bits counted, no further than past the STOP
pattern (R145). -/
def bitCounted (s : State) (b : Bool) : State :=
  { s with lc := { s.lc.recover b with
    err := if b then none else s.lc.err
    domRun := if b then 0 else min (s.lc.domRun + 1) 25 } }

/-- The command that hands on the error settled at a bit of level `b` (R143). -/
def settledBy (lc : Link) (b : Bool) : List Instr :=
  match b, lc.err with
  | true, some e => [if e.transmit then .transmitError e.kind e.tick else .receiveError e.kind]
  | _, _ => []

/-- A bit taken: what is counted at it comes first; the 24th dominant bit in a row is the STOP pattern's
alone; any other goes to the bus phase (R132, R143, R145, R159). -/
def BitsAreRead : Prop :=
  ∀ (s : State) (sent b : Bool),
    readBit s sent b =
      (let t := bitCounted s b
      if b = false ∧ s.lc.domRun = 23 then (t, [.stopPattern])
      else ((phaseBit t sent b).1, settledBy s.lc b ++
        (if t.lc.state = .silent ∧ t.lc.recovery = 64 then [.recoveryComplete] else []) ++
        (phaseBit t sent b).2))

/-- One bit of the link: LC sends its level and takes the level of the pair, the listed bit is used up, the
32 bits of a STOP pattern and those owed after a reset are counted down, and what the bit brings about is
queued, STOP_PATTERN_END at the pattern's last bit (R130, R144, R146). -/
def BitsAreTaken : Prop :=
  ∀ (s : State),
    let sent := driveLevel s
    let b := s.lines.wire.level sent
    let u := { s with bitDue := false, lines.linkIn := s.lines.linkIn.tail }
    let read := if s.lc.started then readBit u sent b else (u, [])
    ∃ (order : List Instr) (p : Nat),
      order.Perm (read.2 ++ if s.lc.stopLeft = 1 then [.stopPatternEnd] else []) ∧
      linkBit s = { read.1 with
        lc := { read.1.lc with stopLeft := s.lc.stopLeft - 1, resetLeft := s.lc.resetLeft - 1 }
        pending := s.pending ++ order
        picks := p }

/-- What LC drives (R137, R144, R146, R150): dominant while a STOP pattern or the end of what a reset cut
short is owed; else a start-of-frame where it offers a frame in IDLE, the acknowledge slot of a frame it
receives with no error, and recessive wherever else it sends no frame and no signal of its own. -/
def BitsAreDriven : Prop :=
  (∀ (s : State), 0 < s.lc.stopLeft ∨ 0 < s.lc.resetLeft → driveLevel s = false) ∧
  (∀ (s : State) (i : Fin 4) (f : Frame) (fails : Nat), Pre.offer s i f fails →
    driveLevel s = false) ∧
  (∀ (s : State) (p : Progress), s.lc.started = true → s.lc.overriding = false →
    s.lc.phase = .frame → s.lc.rx = some p → p.transmitting = false →
    (driveLevel s = false ↔ p.tail = some 1 ∧ p.checkBad = false ∧ s.lc.state ≠ .silent ∧
      (s.sl.station = .joining ∨ s.sl.station = .run ∨ s.sl.station = .unconfigured))) ∧
  (∀ (s : State), s.lc.overriding = false →
    s.lc.started = false ∨ s.lc.phase = .integrating ∨ s.lc.phase = .interframe ∨
      s.lc.phase = .errorDelimiter ∨ s.lc.phase = .stop →
    driveLevel s = true)

end Sys2Proof.Machine

/-- The errors of a frame at their bits (R133, R134, R135, R136, R141), and what one does: the frame is
discarded and the signal begins at the next bit, for a check error at the first bit of the end field
(R142). The signal is 8 bits, dominant where the link state is ACTIVE at its first bit, recessive
otherwise; then the error delimiter. An error is handed to the counts at the first recessive bit after it
(R143). A bit is dominant where another station drives it, or this one does and its drive reaches the pair
(R130). The bits of the bus phases, of SILENT and of recovery are counted as `BusPhasesCount`,
`SilentDrivesNothing` and `RecoveryCounts` say (R132, R145, R157, R159), and what a bit of the link does
as a whole as `BitsAreRead`, `BitsAreTaken` and `BitsAreDriven` say (R137, R144, R146). The model's
choices among these: that a dominant check delimiter with a bad check is a form error and not a check
error, and a transmitter's wrong recessive or stuff bit a bit error and not a form or stuff error (log
10); that a begun signal runs all its 8 bits though the station enters SILENT in it (log 35); that an own
start-of-frame bit taken recessive is a bit error of a frame ON WIRE (log 43); that the link's levels and
the reach of the own drive are inputs (log 6); that what a bit brings about is queued, in a free order
(log 2, log 8), a STOP pattern's end with it. -/
def Obligations.LinkErrorsAreFoundSignalledAndSettled : Prop :=
  (∀ (p : Progress) (sent b : Bool), p.tail = none → p.bit sent b = fieldFinding p sent b) ∧
  (∀ (p : Progress) (k : Nat) (sent b : Bool), p.tail = some k → p.bit sent b = tailFinding p k b) ∧
  (∀ (s : State) (p : Progress) (sent b : Bool) (kind : ErrKind), Pre.reading s p →
    p.bit sent b = .error kind →
    phaseBit s sent b =
      ({ signalled s with lc := { (signalled s).lc with
          err := some ⟨kind, p.transmitting, s.tick, b⟩ } }, [])) ∧
  (∀ (s : State) (p q : Progress) (sent b : Bool), Pre.reading s p → p.bit sent b = .lost q →
    phaseBit s sent b = ({ s with lc := { s.lc with rx := some q } }, [.arbitrationLost])) ∧
  (∀ (s : State) (p q : Progress) (sent b : Bool), Pre.reading s p → p.bit sent b = .badCheck q →
    phaseBit s sent b = ({ s with lc := { s.lc with
      rx := some q, err := some ⟨.check, p.transmitting, s.tick, b⟩ } }, [])) ∧
  (∀ (s : State) (p : Progress) (sent b : Bool), Pre.reading s p → p.bit sent b = .signal →
    phaseBit s sent b = (signalled s, [])) ∧
  (∀ (s : State) (p : Progress) (sent b : Bool), Pre.reading s p → p.bit sent b = .complete →
    phaseBit s sent b = (s, [if p.transmitting then .ownFrameComplete else p.command])) ∧
  (∀ (s : State) (i : Fin 4) (f : Frame) (fails : Nat) (sent : Bool), Pre.offer s i f fails →
    phaseBit s sent false = (s, [.frameOffer]) ∧
    ∃ t, phaseBit s sent true = (t, []) ∧ t.lc.phase = .errorSignal ∧ t.lc.sigLeft = 8 ∧
      t.lc.err = some ⟨.bit, true, s.tick, true⟩ ∧
      t.lc.slots = s.lc.slots.set i (some ⟨f, true, fails⟩)) ∧
  (∀ (s : State), s.lc.started = true → s.lc.overriding = false → s.lc.phase = .errorSignal →
    driveLevel s = !(if s.lc.sigLeft = 8 then decide (s.lc.state = .active) else s.lc.sigDominant)) ∧
  (∀ (s : State) (sent b : Bool), s.lc.phase = .errorSignal → 2 ≤ s.lc.sigLeft →
    phaseBit s sent b = ({ s with lc := { s.lc with
      sigLeft := s.lc.sigLeft - 1
      sigDominant := if s.lc.sigLeft = 8 then decide (s.lc.state = .active)
        else s.lc.sigDominant } }, [])) ∧
  (∀ (s : State) (sent b : Bool), s.lc.phase = .errorSignal → s.lc.sigLeft ≤ 1 →
    phaseBit s sent b = ({ s with lc := { s.lc with
      phase := .errorDelimiter, sigLeft := 0, recRun := 0 } }, [])) ∧
  (∀ (lc : Link) (e : FoundError), lc.err = some e →
    lc.settle false = (lc, []) ∧
    lc.settle true = ({ lc with err := none },
      [if e.transmit then .transmitError e.kind e.tick else .receiveError e.kind])) ∧
  (∀ (w : Wire) (sent : Bool),
    w.level sent = false ↔ w.dominant = true ∨ sent = false ∧ w.cut = false) ∧
  BusPhasesCount ∧ SilentDrivesNothing ∧ RecoveryCounts ∧ BitsAreRead ∧ BitsAreTaken ∧
  BitsAreDriven

/-! ### Lamps and the beat (Chapter 7) -/

namespace Sys2Proof.Machine

/-- A window of lamp l starts at this instant, in RUN (R116). -/
abbrev Pre.window (s : State) (l : Lamp) : Prop :=
  .window l ∈ s.falling ∧ s.sl.station = .run

/-- The window of lamp l is lit (R117, R118). -/
abbrev Lit (s : State) (l : Lamp) : Prop :=
  ¬ ((s.pc.state = .tilt ∨ s.pc.state = .slam) ∧ (s.lp.lamps.get l).tiltGroup = true) ∧
    1 ≤ (s.lp.lamps.get l).b ∧
    ((s.lp.lamps.get l).mode = .on ∨
      (s.lp.lamps.get l).mode = .flash ∧
        (s.lp.lamps.get l).pattern.getLsbD (s.lp.beat.toNat % 16) = true)

end Sys2Proof.Machine

/-- WINDOW_START fixes the window's duty: dark windows end a soft-start and carry the trickle of a
preheated lamp; the first lit window begins a soft-start at a quarter, rounded up; a lit window without
one has the brightness (R117, R119, R121). -/
def Obligations.WindowStartFixesTheDuty : Prop :=
  ∀ (s : State) (l : Lamp), Pre.window s l →
    exec (.windowStart l) s = .next
      (let r := s.lp.lamps.get l
      let next : LampRec :=
        if Lit s l then
          if r.lit = false then
            { r with lit := true, duty := ceilDiv r.b 4, step := 1, left := 3 }
          else if r.step = 0 then { r with duty := r.b }
          else
            { r with
              lit := true
              duty := ceilDiv (r.b * r.step) 4
              step := if r.left ≤ 1 then if r.step = 3 then 0 else r.step + 1 else r.step
              left := if r.left ≤ 1 then if r.step = 3 then 0 else 4 else r.left - 1 }
        else
          { r with
            lit := false, step := 0, left := 0
            duty := if r.preheat = true ∧ 1 ≤ r.b then 1 else 0 }
      { s with falling := s.falling.erase (.window l), lp.lamps := s.lp.lamps.set l next })

namespace Sys2Proof.Machine

/-- The first phase 0 that falls at this instant is that of this beat (R125). -/
abbrev Pre.beatZero (s : State) (beat : BitVec 8) : Prop := s.beatFalls = some beat

/-- A BEAT of another station with its beat number, in JOINING or RUN (R127). -/
abbrev Pre.beat (s : State) (f : Heard) (sender : BitVec 8) (rest : List Byte) : Prop :=
  s.canReceive = true ∧ s.viewing = true ∧ f.payload = sender :: rest

/-- The beat number after the adoption of R128. -/
def adopted (beat sender aligned : BitVec 8) : BitVec 8 :=
  if 1 ≤ (sender - aligned).toNat ∧ (sender - aligned).toNat ≤ 127 then beat + (sender - aligned)
  else beat

end Sys2Proof.Machine

/-- BEAT_PHASE_ZERO: a beat sender in RUN that is not SILENT hands a BEAT to slot 1 at a beat that is a
multiple of 8, and no other station does. BEAT_WITHDRAW empties slot 1 of a WAITING BEAT from phase 4
on or once the beat has changed (R125, R126). -/
def Obligations.BeatIsSentInItsWindow : Prop :=
  (∀ (s : State) (beat : BitVec 8), Pre.beatZero s beat →
    exec .beatPhaseZero s = .next
      (let t := { s with falling := s.falling.erase (.beatZero beat) }
      let beatSlot : Slot := ⟨⟨0, 0, s.own, [beat]⟩, false, 0⟩
      if s.cfg.station.beatSender = true ∧ s.sl.station = .run ∧ s.lc.state ≠ .silent ∧
          beat.toNat % 8 = 0 then
        { t with lc.slots := s.lc.slots.set 1 (some beatSlot) }
      else t)) ∧
  (∀ (s : State) (f : Frame) (fails : Nat), s.lc.slots.get 1 = some ⟨f, false, fails⟩ →
    4 ≤ s.lp.phase ∨ pByte f.payload 1 ≠ s.lp.beat.toNat →
    exec .beatWithdraw s = .next { s with lc.slots := s.lc.slots.set 1 none })

/-- BEAT_RECEIVED: the beat number is adopted where the sender is 1 to 127 ahead of the aligned one; a
phase of 1 to 160 at the start-of-frame retards by at most J, one of 161 to 319 advances by at most J,
and an advance past 319 wraps into the next beat; phase 0 of that beat is a beat sender's to announce, at a
multiple of 8 (R125, R127, R128). A BEAT with no byte, or heard outside JOINING and RUN, is a heard frame
and no more (R127, R129). -/
def Obligations.HeardBeatCorrectsTheTimer : Prop :=
  (∀ (s : State) (f : Heard) (p : Fin 320) (sofBeat : BitVec 8), s.canReceive = true →
    s.viewing = false ∨ f.payload = [] →
    exec (.beatReceived f p sofBeat) s = .next (heard s f)) ∧
  ∀ (s : State) (f : Heard) (p : Fin 320) (sofBeat sender : BitVec 8) (rest : List Byte),
    Pre.beat s f sender rest →
    ∃ t, exec (.beatReceived f p sofBeat) s = .next t ∧
      t = { heard s f with lp.phase := t.lp.phase, lp.beat := t.lp.beat, lc := t.lc } ∧
      t.lc = (if 160 < p.val ∧ 319 < s.lp.phase + min (320 - p.val) s.cfg.station.resync ∧
          s.cfg.station.beatSender = true ∧ s.sl.station = .run ∧ (heard s f).lc.state ≠ .silent ∧
          t.lp.beat.toNat % 8 = 0 then
        { (heard s f).lc with
          slots := s.lc.slots.set 1 (some ⟨⟨0, 0, s.own, [t.lp.beat]⟩, false, 0⟩) }
        else (heard s f).lc) ∧
      (let j := s.cfg.station.resync
      (p.val ≤ 160 → t.lp.phase = s.lp.phase - min p.val j ∧
        t.lp.beat = adopted s.lp.beat sender sofBeat) ∧
      (160 < p.val → s.lp.phase + min (320 - p.val) j ≤ 319 →
        t.lp.phase = s.lp.phase + min (320 - p.val) j ∧
          t.lp.beat = adopted s.lp.beat sender (sofBeat + 1)) ∧
      (160 < p.val → 319 < s.lp.phase + min (320 - p.val) j →
        t.lp.phase = s.lp.phase + min (320 - p.val) j - 320 ∧
          t.lp.beat = adopted s.lp.beat sender (sofBeat + 1) + 1))

/-! ### Play state, events and actions (Chapters 10 and 11) -/

namespace Sys2Proof.Machine

/-- A TILT or GAME frame of another station in RUN with a code of Table 12-2, and the own record. -/
abbrev Pre.play (s : State) (f : Heard) (code : Byte) (i : Fin 63) : Prop :=
  s.canReceive = true ∧ s.sl.station = .run ∧ Assigned f.payload code ∧ Pre.number s.own i

end Sys2Proof.Machine

/-- TILT_RECEIVED and GAME_RECEIVED move the play state and the stopped flag as Table 11-1 shows, with all
that `playMoved` says: the work of newly disabled outputs is ended and their claim withdrawn, the own
standing draw computed again, the flippers rested outside PLAY, the tilt-group lamps darkened, and a
selection made (R12, R63, R64, R83, R122, R171, R173). Outside RUN, or with a code not assigned, the frame
is heard and no more (R170, R171). -/
def Obligations.PlayFramesMoveThePlayState : Prop :=
  (∀ (s : State) (f : Heard) (code : Byte) (i : Fin 63), Pre.play s f code i →
    exec (.tiltReceived f) s = .next (playMoved (heard s f) i 1 code)) ∧
  (∀ (s : State) (f : Heard) (code : Byte) (i : Fin 63), Pre.play s f code i →
    exec (.gameReceived f) s = .next (playMoved (heard s f) i 2 code)) ∧
  (∀ (s : State) (f : Heard), s.canReceive = true →
    s.sl.station ≠ .run ∨ (∀ code, ¬ Assigned f.payload code) →
    exec (.tiltReceived f) s = .next (heard s f) ∧ exec (.gameReceived f) s = .next (heard s f))

/-- EVENT_RECEIVED is heard and then routed as `Routed` says: outside RUN or short, not matched; a bad edge
field or a key that no filter matches, counted; else the first LIST filter that names the key runs its
action, and where none does the first MASK filter (R164, R165, R166). What the action does,
`ActionsTakeTheirEffect` states. -/
def Obligations.EventsAreMatchedByTheirKey : Prop :=
  ∀ (s : State) (f : Heard), s.canReceive = true →
    ∃ t, exec (.eventReceived f) s = .next t ∧ Routed (heard s f) t f.source f.payload

namespace Sys2Proof.Machine

/-- An action asks what a command asks (R163, R168). -/
def SameWork : Action → Command → Prop
  | .fire n, c => c = .coil n (.fire none)
  | .hold n, c => c = .coil n .hold
  | .release n, c => c = .coil n .release
  | .train n req, c => c = .coil n (.train req)
  | .trainStop n cancel, c => c = .coil n (.trainStop cancel)
  | .lampSet l mode b pattern, c => c = .lampSet l mode b pattern
  | _, _ => False

/-- A play action and the kind and code of the frame it makes (R172, Table 12-2). -/
def playOf : Action → Option (BitVec 5 × Byte)
  | .raiseTilt => some (1, 1)
  | .raiseSlam => some (1, 2)
  | .gameStart => some (2, 1)
  | .gameOver => some (2, 2)
  | _ => none

/-- The priority of a TILT (0) or a GAME (2) frame (Table 8-2). -/
def playPriority (kind : BitVec 5) : BitVec 3 := if kind = 1 then 0 else 2

/-- LC drops a frame handed to it that replaces none: both shared slots and the outgoing queue are full
(R148). -/
abbrev Pre.full (lc : Link) : Prop :=
  lc.state ≠ .silent ∧ lc.slots.get 2 ≠ none ∧ lc.slots.get 3 ≠ none ∧ 8 ≤ lc.outq.length

end Sys2Proof.Machine

/-- An action for a coil or a lamp has the effect of the command that asks the same (R110, R168).
RAISE_TILT, RAISE_SLAM, GAME_START and GAME_OVER hand a frame, and no more; where LC refuses it in SILENT,
or drops it for full slots and a full queue, PC takes its change at once (R148, R172). A frame LC takes
goes to slot 2, else to slot 3, else to the end of the queue (R148). TABLE_STOP begins a STOP pattern of 32
bits, does not lengthen one already driven, and in SILENT is the table stop itself (R144, R174, R175). -/
def Obligations.ActionsTakeTheirEffect : Prop :=
  (∀ (s : State) (k : CommandKind) (f : Heard) (a : Action) (c : Command), Pre.takes s k f c →
    SameWork a c → exec (commandRow k f) s = .next (runAction (heard s f) a)) ∧
  (∀ (s : State) (a : Action) (kind : BitVec 5) (code : Byte), playOf a = some (kind, code) →
    s.lc.state ≠ .silent → ¬ Pre.full s.lc →
    ∃ lc, runAction s a = { s with lc := lc } ∧
      (let f : Frame := ⟨playPriority kind, kind, s.own, [code]⟩
      (s.lc.slots.get 2 = none →
        lc = { s.lc with slots := s.lc.slots.set 2 (some ⟨f, false, 0⟩) }) ∧
      (s.lc.slots.get 2 ≠ none → s.lc.slots.get 3 = none →
        lc = { s.lc with slots := s.lc.slots.set 3 (some ⟨f, false, 0⟩) }) ∧
      (s.lc.slots.get 2 ≠ none → s.lc.slots.get 3 ≠ none →
        lc = { s.lc with outq := s.lc.outq ++ [f] }))) ∧
  (∀ (s : State) (a : Action) (kind : BitVec 5) (code : Byte) (i : Fin 63),
    playOf a = some (kind, code) → s.sl.station = .run → Pre.number s.own i →
    (s.lc.state = .silent → runAction s a = playMoved s i kind code) ∧
    (Pre.full s.lc → runAction s a = playMoved
      { s with lc := { s.lc with txDrop := min 65535 (s.lc.txDrop + 1) } } i kind code)) ∧
  (∀ (s : State), s.lc.state ≠ .silent →
    runAction s .tableStop = if s.lc.stopLeft = 0 then { s with lc.stopLeft := 32 } else s) ∧
  (∀ (s : State), s.lc.state = .silent → s.sl.station = .run →
    runAction s .tableStop = tableStopped s)

/-! ### Switches and flippers (Chapters 4 and 6) -/

namespace Sys2Proof.Machine

/-- A scanner that runs, and a level of a line that is a change (R101). -/
abbrev Pre.raw (s : State) (sw : Sw) (high : Bool) : Prop :=
  s.viewing = true ∧ s.lines.sw.get sw ≠ high

/-- The switch record after a raw change to closed or open (R102, R103, R106). -/
def afterRaw (r : Switch) (st : SwitchSettings) (now : Tick) (closed : Bool) : Switch :=
  if closed then
    match r.state with
    | .open => ⟨.closing, some (now + BitVec.ofNat 32 st.closeDebounce), r.stuckEnd⟩
    | .opening => ⟨.closed, none, r.stuckEnd⟩
    | .stuck => ⟨.stuck, none, r.stuckEnd⟩
    | _ => r
  else
    match r.state with
    | .closing => ⟨.open, none, r.stuckEnd⟩
    | .closed => ⟨.opening, some (now + BitVec.ofNat 32 st.openDebounce), r.stuckEnd⟩
    | .stuck => ⟨.stuck, some (now + BitVec.ofNat 32 st.openDebounce), r.stuckEnd⟩
    | _ => r

/-- The debounce end of a switch is reached in this state (R102, R103, R106). -/
abbrev Pre.debounce (s : State) (sw : Sw) (st : SwState) (due : Tick) : Prop :=
  s.viewing = true ∧ (s.sw.sw.get sw).state = st ∧ (s.sw.sw.get sw).debounceEnd = some due ∧
    reached s.tick due = true

/-- No flipper in use watches the switch. -/
abbrev Pre.noFlipper (s : State) (sw : Sw) : Prop :=
  ∀ f : Flip, (s.cfg.flippers.get f).inUse = true →
    (s.cfg.flippers.get f).button ≠ sw ∧ (s.cfg.flippers.get f).eos ≠ some sw

/-- The stuck end of a switch is reached in CLOSED or OPENING (R105). -/
abbrev Pre.stuck (s : State) (sw : Sw) (due : Tick) : Prop :=
  s.viewing = true ∧ ((s.sw.sw.get sw).state = .closed ∨ (s.sw.sw.get sw).state = .opening) ∧
    (s.sw.sw.get sw).stuckEnd = some due ∧ reached s.tick due = true

/-- No rule in use names the switch, and flipper f alone of those in use watches it. -/
abbrev Pre.watched (s : State) (sw : Sw) (f : Flip) : Prop :=
  (∀ i : Fin 32, (s.cfg.rules.get i).inUse = true → (s.cfg.rules.get i).sw ≠ sw) ∧
    (s.cfg.flippers.get f).inUse = true ∧
    ∀ g : Flip, g ≠ f → (s.cfg.flippers.get g).inUse = true →
      (s.cfg.flippers.get g).button ≠ sw ∧ (s.cfg.flippers.get g).eos ≠ some sw

/-- The switch is flipper f's button. -/
abbrev Pre.button (s : State) (sw : Sw) (f : Flip) : Prop :=
  Pre.watched s sw f ∧ (s.cfg.flippers.get f).button = sw ∧ (s.cfg.flippers.get f).eos ≠ some sw

/-- The switch is flipper f's EOS switch. -/
abbrev Pre.eos (s : State) (sw : Sw) (f : Flip) : Prop :=
  Pre.watched s sw f ∧ (s.cfg.flippers.get f).button ≠ sw ∧ (s.cfg.flippers.get f).eos = some sw

/-- FL takes a button close as a press (R75). -/
abbrev Pre.press (s : State) (f : Flip) : Prop :=
  s.sl.station = .run ∧ s.pc.state = .play ∧ s.pc.stopped = false ∧
    (s.fl.get f).disabled = false ∧ (s.fl.get f).state = .rest

/-- A flipper held in an EOS press, with a repower left (R79). -/
abbrev Pre.repower (s : State) (f : Flip) : Prop :=
  (s.fl.get f).state = .hold ∧ (s.fl.get f).timed = false ∧
    (s.fl.get f).repowers < (s.cfg.flippers.get f).maxRepowers

/-- A flipper in POWER of an EOS press, at or after its window end (R77). -/
abbrev Pre.windowOver (s : State) (f : Flip) : Prop :=
  (s.fl.get f).state = .power ∧ (s.fl.get f).timed = false ∧
    reached s.tick (s.fl.get f).windowEnd = true

/-- The EOS check of a press, by the EOS level, none without an EOS switch (R76). -/
def eosChecked (r : Flipper) : Option Bool → Flipper
  | none => { r with timed := true }
  | some closed =>
    if r.faulty then { r with timed := true }
    else if closed then
      { r with
        timed := true
        closedCount := min 3 (r.closedCount + 1)
        faulty := decide (3 ≤ r.closedCount + 1) }
    else { r with timed := false, closedCount := 0 }

/-- A flipper's power output heated by a power time (R43). -/
def heated (s : State) (n : Out) (t : Nat) : Bank Channel 16 :=
  s.cs.chan.set n { s.ch n with heat := min 65535 ((s.ch n).heat + t) }

/-- A flipper in HOLD from `now`, its hold limit running (R77). -/
def flipHeld (s : State) (f : Flip) : Flipper :=
  { s.fl.get f with
    state := .hold
    limitEnd := some (s.tick + BitVec.ofNat 32 (10 * (s.cfg.flippers.get f).holdLimit))
    periodStart := s.tick }

/-- A flipper's press: the EOS check, POWER for the stretched power time, the window end at the min power
time, the power output's heat raised (R43, R75, R76). -/
def pressed (s : State) (f : Flip) : State :=
  let st := s.cfg.flippers.get f
  let base := if (s.prof st.power).heatLimit ≤ (s.ch st.power).heat then st.softPower else st.maxPower
  let p := stretch base s.cfg.station.vnom s.sc.supply
  { s with
    fl := s.fl.set f { eosChecked (s.fl.get f) (s.eosLevel f) with
      state := .power, repowers := 0, reduced := false, limitEnd := none
      phaseEnd := s.tick + BitVec.ofNat 32 p
      windowEnd := s.tick + BitVec.ofNat 32 st.minPower }
    cs.chan := heated s st.power p }

/-- A flipper taken to REST; one in REST stays as it is (R82). -/
def flipperRested (s : State) (f : Flip) : State :=
  { s with fl := if (s.fl.get f).state = .rest then s.fl
      else s.fl.set f { s.fl.get f with
        state := .rest, repowers := 0, reduced := false, limitEnd := none } }

/-- A flipper repowered for half its max power time, stretched (R79). -/
def repowered (s : State) (f : Flip) : State :=
  let st := s.cfg.flippers.get f
  let p := stretch (ceilDiv st.maxPower 2) s.cfg.station.vnom s.sc.supply
  { s with
    fl := s.fl.set f { s.fl.get f with
      state := .repower
      repowers := (s.fl.get f).repowers + 1
      phaseEnd := s.tick + BitVec.ofNat 32 p }
    cs.chan := heated s st.power p }

/-- A flipper's EOS switch closed (R77, R78, R80). -/
def eosClosed (s : State) (f : Flip) : State :=
  if Pre.windowOver s f then { s with fl := s.fl.set f (flipHeld s f) } else s

/-- A flipper's EOS switch opened (R77, R79). -/
def eosOpened (s : State) (f : Flip) : State := if Pre.repower s f then repowered s f else s

/-- What a change of level of a switch does to flipper f, whatever else the switch serves (R73, R75–R82). -/
def flipperAnswer (s : State) (sw : Sw) (closed : Bool) (f : Flip) : State :=
  let st := s.cfg.flippers.get f
  if st.inUse = true ∧ st.button = sw then
    if closed = false then flipperRested s f
    else if Pre.press s f then pressed s f
    else s
  else if st.inUse = true ∧ st.eos = some sw then
    if closed = true then eosClosed s f else eosOpened s f
  else s

/-- A switch in CLOSED from `now`, its stuck end set where its stuck check is on (R102). -/
def swClosed (s : State) (sw : Sw) : Switch :=
  ⟨.closed, none, (s.cfg.switches.get sw).stuckCheck.map fun w => s.tick + BitVec.ofNat 32 (10 * w)⟩

/-- A switch record replaced. -/
def withSw (s : State) (sw : Sw) (r : Switch) : State := { s with sw.sw := s.sw.sw.set sw r }

/-- A rule that matches an edge is applied whole: its action, then its EVENT frame, which is not made in
SILENT (R109, R110, R111). -/
def ruleApplied (s : State) (r : Rule) (sw : Sw) (close : Bool) : State :=
  let t := match r.action with
    | some a => runAction s (s.cfg.actions.get a)
    | none => s
  match r.event with
  | some (code, prio) =>
    let f : Frame := ⟨prio, 8, t.own, [byte sw.val, if close then 1 else 0, code]⟩
    if t.lc.state = .silent then t else { t with lc := t.lc.hand f }
  | none => t

/-- The rules in use for an edge, in ascending number, in RUN (R109, R112). -/
def rulesOf (s : State) (sw : Sw) (close : Bool) : List Rule :=
  if s.sl.station = .run then
    ((List.finRange 32).map s.cfg.rules.get).filter fun r =>
      decide (r.inUse = true ∧ r.sw = sw ∧ r.close = close)
  else []

/-- The first `n` rules of an edge, each applied whole, in ascending number (R109). -/
def firstRulesApplied (s : State) (sw : Sw) (close : Bool) (n : Nat) : State :=
  ((rulesOf s sw close).take n).foldl (fun t r => ruleApplied t r sw close) s

/-- All the rules of an edge applied, in ascending number (R109, R112). -/
def rulesApplied (s : State) (sw : Sw) (close : Bool) : State :=
  (rulesOf s sw close).foldl (fun t r => ruleApplied t r sw close) s

/-- An edge was taken whole: by the rules and by the flippers, in one order or the other (R107). `p` is the
model's own counter (log 18). -/
def EdgeTaken (s t : State) (sw : Sw) (close : Bool) : Prop :=
  ∃ p, t = flippersLevel (rulesApplied { s with picks := p } sw close) sw close ∨
    t = rulesApplied (flippersLevel { s with picks := p } sw close) sw close

/-- A reset waits next in the queue: it comes at the instant of the command in hand, since no time passes
between two commands that wait (log 1, log 45). -/
def Pre.resetNext (s : State) : Prop := ∃ c ∈ s.pending.head?, Resets c

/-- An edge that a reset cut: some of its first rules were applied, each whole, and no later one; the
flippers took it before them or not at all (R107, R112). -/
def EdgeCut (s t : State) (sw : Sw) (close : Bool) : Prop :=
  ∃ p n, t = firstRulesApplied { s with picks := p } sw close n ∨
    t = firstRulesApplied (flippersLevel { s with picks := p } sw close) sw close n

/-- An edge was made: it was taken whole or, where a reset waits next, may have been cut (R112). How far it
came is a free value (log 45). -/
def EdgeMade (s t : State) (sw : Sw) (close : Bool) : Prop :=
  EdgeTaken s t sw close ∨ Pre.resetNext s ∧ EdgeCut s t sw close

end Sys2Proof.Machine

/-- RAW_CHANGE moves the line and, where the scanner runs, the switch record as R102, R103 and R106
show; a level that is no change, or one while the scanner does not run, moves the line alone. -/
def Obligations.RawChangesMoveTheDebounce : Prop :=
  (∀ (s : State) (sw : Sw) (high : Bool), Pre.raw s sw high →
    exec (.rawChange sw high) s = .next { s with
      lines.sw := s.lines.sw.set sw high
      sw.sw := s.sw.sw.set sw (afterRaw (s.sw.sw.get sw) (s.cfg.switches.get sw) s.tick
        (high == (s.cfg.switches.get sw).invert)) }) ∧
  (∀ (s : State) (sw : Sw) (high : Bool), s.viewing = false ∨ s.lines.sw.get sw = high →
    exec (.rawChange sw high) s = .next { s with lines.sw := s.lines.sw.set sw high })

/-- DEBOUNCE_END in CLOSING makes a close edge and in OPENING an open edge: the switch is in CLOSED with its
stuck end set from the stuck check, or in OPEN, and the edge is taken by the switch rules and by the
flippers, either first (R102, R103, R107). The rules in use for the edge are applied in ascending number in
RUN, each whole: its action, then its EVENT frame (R109, R110, R111). A reset that waits next may end the edge:
the rules up to some rule are applied, each whole, and none after it (R112); how far the edge comes is a free
value, and that the reset is the one that waits next is the model's choice (log 45). Where no flipper watches
the switch and no reset waits next, the rules are applied and that is all. In STUCK the switch goes to OPEN,
which the flippers take and no rule does (R106). -/
def Obligations.DebounceEndMakesTheEdge : Prop :=
  (∀ (s : State) (sw : Sw) (due : Tick), Pre.debounce s sw .closing due →
    ∃ t, exec (.debounceEnd sw) s = .next t ∧ EdgeMade (withSw s sw (swClosed s sw)) t sw true) ∧
  (∀ (s : State) (sw : Sw) (due : Tick), Pre.debounce s sw .opening due →
    ∃ t, exec (.debounceEnd sw) s = .next t ∧
      EdgeMade (withSw s sw ⟨.open, none, none⟩) t sw false) ∧
  (∀ (s : State) (sw : Sw) (due : Tick), Pre.debounce s sw .closing due → Pre.noFlipper s sw →
    ¬ Pre.resetNext s →
    exec (.debounceEnd sw) s = .next (rulesApplied (withSw s sw (swClosed s sw)) sw true)) ∧
  (∀ (s : State) (sw : Sw) (due : Tick), Pre.debounce s sw .opening due → Pre.noFlipper s sw →
    ¬ Pre.resetNext s →
    exec (.debounceEnd sw) s = .next (rulesApplied (withSw s sw ⟨.open, none, none⟩) sw false)) ∧
  (∀ (s : State) (sw : Sw) (due : Tick), Pre.debounce s sw .stuck due →
    exec (.debounceEnd sw) s = .next
      (flippersLevel (withSw s sw ⟨.open, none, (s.sw.sw.get sw).stuckEnd⟩) sw false)) ∧
  (∀ (s : State) (sw : Sw) (close : Bool), Pre.noFlipper s sw → flippersLevel s sw close = s)

/-- A close edge of a flipper's button is a press: the EOS check, then POWER for the stretched power
time, the window end at the min power time, and the power output's heat raised by that time; nothing is
queued or claimed (R73, R75, R76, R86); where FL takes no press nothing moves. A button open takes the
flipper to REST (R82). In an EOS press: an EOS close at or after the window end leads from POWER to HOLD,
and one before it, or in another state, does nothing (R77, R78, R80); an EOS open in HOLD starts a repower
where one is left, and does nothing otherwise (R77, R79). A TIMED press heeds no EOS edge, close or open
(R76). The same for a switch that switch rules name too, or that several flippers watch: its change of level
does to each flipper in turn what `flipperAnswer` says, without regard to the rules, which are taken before or
after it as `DebounceEndMakesTheEdge` says (R73, 4.2, R107). -/
def Obligations.FlippersAnswerTheirSwitches : Prop :=
  (∀ (s : State) (sw : Sw) (due : Tick) (f : Flip), Pre.debounce s sw .closing due →
    Pre.button s sw f → Pre.press s f →
    exec (.debounceEnd sw) s = .next
      (pressed (withSw s sw (swClosed s sw)) f)) ∧
  (∀ (s : State) (sw : Sw) (due : Tick) (f : Flip), Pre.debounce s sw .closing due →
    Pre.button s sw f → ¬ Pre.press s f →
    exec (.debounceEnd sw) s = .next (withSw s sw (swClosed s sw))) ∧
  (∀ (s : State) (sw : Sw) (due : Tick) (f : Flip), Pre.debounce s sw .opening due →
    Pre.button s sw f →
    exec (.debounceEnd sw) s = .next (flipperRested (withSw s sw ⟨.open, none, none⟩) f)) ∧
  (∀ (s : State) (sw : Sw) (due : Tick) (f : Flip), Pre.debounce s sw .closing due →
    Pre.eos s sw f →
    exec (.debounceEnd sw) s = .next
      (eosClosed (withSw s sw (swClosed s sw)) f)) ∧
  (∀ (s : State) (sw : Sw) (due : Tick) (f : Flip), Pre.debounce s sw .opening due →
    Pre.eos s sw f →
    exec (.debounceEnd sw) s = .next
      (eosOpened (withSw s sw ⟨.open, none, none⟩) f)) ∧
  (∀ (s : State) (sw : Sw) (st : SwState) (due : Tick) (f : Flip), Pre.debounce s sw st due →
    st = .closing ∨ st = .opening → Pre.eos s sw f → (s.fl.get f).timed = true →
    exec (.debounceEnd sw) s = .next (withSw s sw
      (if st = .closing then swClosed s sw else ⟨.open, none, none⟩))) ∧
  (∀ (s : State) (sw : Sw) (closed : Bool),
    flippersLevel s sw closed = (List.finRange 4).foldl (fun t f => flipperAnswer t sw closed f) s)

namespace Sys2Proof.Machine

/-- A switch in OPENING reaches its stuck end and its open debounce end together (R105). -/
abbrev Pre.bothEnds (s : State) (sw : Sw) (due debounce : Tick) : Prop :=
  s.viewing = true ∧ (s.sw.sw.get sw).state = .opening ∧
    (s.sw.sw.get sw).stuckEnd = some due ∧ reached s.tick due = true ∧
    (s.sw.sw.get sw).debounceEnd = some debounce ∧ reached s.tick debounce = true

/-- The station with a switch stuck: STUCK, its debounce end kept, its stuck end none, the stuck counter
raised (R105). -/
def stuckState (s : State) (sw : Sw) : State :=
  { s with sw := { s.sw with
      sw := s.sw.sw.set sw ⟨.stuck, (s.sw.sw.get sw).debounceEnd, none⟩
      stuckCount := min 65535 (s.sw.stuckCount + 1) } }

end Sys2Proof.Machine

/-- STUCK_END of a switch in CLOSED or OPENING: STUCK, the stuck counter raised, the stuck end none, a
running open debounce kept as the stuck release, nothing else changed (no edge, no rule), the level
still closed. With its stuck check off a switch gets no stuck end, and never reaches one. Of both ends
together: the debounce end taken first makes the open edge from OPEN with no stuck end (which a reset that
waits next may cut, as `DebounceEndMakesTheEdge` says; log 45); the stuck end taken first leaves STUCK, and
the debounce end then takes it to OPEN with no rule applied (R105). -/
def Obligations.StuckEndMakesNoEdge : Prop :=
  (∀ (s : State) (sw : Sw) (due : Tick), Pre.stuck s sw due →
    exec (.stuckEnd sw) s = .next (stuckState s sw) ∧
      s.switchClosed sw = true ∧ (stuckState s sw).switchClosed sw = true) ∧
  (∀ (st : SwitchSettings) (now : Tick), st.stuckCheck = none → st.stuckEnd now = none) ∧
  (∀ (s : State) (sw : Sw), (s.sw.sw.get sw).stuckEnd = none →
    exec (.stuckEnd sw) s = .next s) ∧
  (∀ (s : State) (sw : Sw) (due debounce : Tick), Pre.bothEnds s sw due debounce →
    ∃ t, exec (.debounceEnd sw) s = .next t ∧
      EdgeMade (withSw s sw ⟨.open, none, none⟩) t sw false) ∧
  (∀ (s : State) (sw : Sw) (due debounce : Tick), Pre.bothEnds s sw due debounce →
    exec (.stuckEnd sw) s = .next (stuckState s sw) ∧
      exec (.debounceEnd sw) (stuckState s sw) =
        .next (flippersLevel (withSw (stuckState s sw) sw ⟨.open, none, none⟩) sw false))

namespace Sys2Proof.Machine

/-- A flipper in POWER of an EOS press whose window end is reached with the EOS closed (R77). -/
abbrev Pre.windowEnd (s : State) (f : Flip) (eos : Sw) : Prop :=
  Pre.windowOver s f ∧ (s.cfg.flippers.get f).eos = some eos ∧
    ((s.sw.sw.get eos).state = .closed ∨ (s.sw.sw.get eos).state = .opening ∨
      (s.sw.sw.get eos).state = .stuck)

/-- A flipper in this state whose phase end is reached (R77, R80). -/
abbrev Pre.flipperEnd (s : State) (f : Flip) (st : FlipState) : Prop :=
  (s.fl.get f).state = st ∧ reached s.tick (s.fl.get f).phaseEnd = true

/-- A flipper held whose hold-limit end is reached (R81). -/
abbrev Pre.holdLimit (s : State) (f : Flip) (due : Tick) : Prop :=
  ((s.fl.get f).state = .hold ∨ (s.fl.get f).state = .repower) ∧
    (s.fl.get f).limitEnd = some due ∧ (s.fl.get f).reduced = false ∧ reached s.tick due = true

end Sys2Proof.Machine

/-- FLIPPER_WINDOW_END and FLIPPER_POWER_END lead to HOLD with the hold limit set (R77); REPOWER_END
leads back to HOLD with a new period, whatever the EOS level, the hold limit and the reduced flag kept
(R80). HOLD_LIMIT_END sets the reduced flag and counts a hold-timeout of the power output; the flipper
stays in its state (R81). -/
def Obligations.FlipperPhasesEndInHold : Prop :=
  (∀ (s : State) (f : Flip) (eos : Sw), Pre.windowEnd s f eos →
    exec (.flipperWindowEnd f) s = .next { s with fl := s.fl.set f (flipHeld s f) }) ∧
  (∀ (s : State) (f : Flip), Pre.flipperEnd s f .power →
    exec (.flipperPowerEnd f) s = .next { s with fl := s.fl.set f (flipHeld s f) }) ∧
  (∀ (s : State) (f : Flip), Pre.flipperEnd s f .repower →
    exec (.repowerEnd f) s = .next { s with
      fl := s.fl.set f { s.fl.get f with state := .hold, periodStart := s.tick } }) ∧
  (∀ (s : State) (f : Flip) (due : Tick), Pre.holdLimit s f due →
     exec (.holdLimitEnd f) s = .next { s with
       fl := s.fl.set f { s.fl.get f with reduced := true }
       cs.chan := s.cs.chan.set (s.cfg.flippers.get f).power
         { s.ch (s.cfg.flippers.get f).power with
           holdTimeouts := min 255 ((s.ch (s.cfg.flippers.get f).power).holdTimeouts + 1) } })

namespace Sys2Proof.Machine

/-- A gate modulated at a duty is on at this tick: in the first `duty` ticks of each 16, the first period
beginning at `since` (R5, R74). -/
abbrev On16 (s : State) (since : Tick) (duty : Nat) : Prop :=
  (s.tick - since).toNat % 16 < duty

end Sys2Proof.Machine

/-- The gates. Outside RUN every coil and lamp gate is off. A CS output's gate is on in POWER, and in HOLD
modulated at the hold duty from the entry to HOLD, and off in every other state (R5, Table 1-8). The gates
of a flipper's outputs follow Table 4-4: on in POWER and REPOWER, off in REST; in HOLD a single winding is
modulated at the hold duty, half of it and at least 1 once reduced, and of a dual winding the hold output is
on, modulated at 8 once reduced, and the power output off (R74, R81). A lamp's gate is on for the ticks of
its window duty, counted from its window start (R116). -/
def Obligations.GatesFollowTheRecords : Prop :=
  (∀ (s : State) (n : Out) (l : Lamp), s.sl.station ≠ .run →
    coilGate s n = false ∧ lampGate s l = false) ∧
  (∀ (s : State) (n : Out), s.sl.station = .run → (s.ch n).state ≠ .flipper →
    (coilGate s n = true ↔ (s.ch n).state = .power ∨
      (s.ch n).state = .hold ∧ On16 s (s.ch n).holdStart (s.prof n).duty)) ∧
  (∀ (s : State) (n : Out) (f : Flip), s.sl.station = .run → (s.ch n).state = .flipper →
    s.cfg.flipperOf n = some f →
    (coilGate s n = true ↔
      (s.fl.get f).state = .power ∨ (s.fl.get f).state = .repower ∨
      (s.fl.get f).state = .hold ∧
        ((s.cfg.flippers.get f).hold = none ∧
            On16 s (s.fl.get f).periodStart (if (s.fl.get f).reduced = true then
              max 1 ((s.cfg.flippers.get f).duty / 2) else (s.cfg.flippers.get f).duty) ∨
          (s.cfg.flippers.get f).hold = some n ∧
            ((s.fl.get f).reduced = false ∨ On16 s (s.fl.get f).periodStart 8)))) ∧
  (∀ (s : State) (l : Lamp), s.sl.station = .run →
    (lampGate s l = true ↔
      ∃ d, d < (s.lp.lamps.get l).duty ∧ d ≤ 14 ∧ s.lp.pos % 15 = (l.val + d) % 15))

/-! ### Resets, start and time (Chapters 1 and 12) -/

namespace Sys2Proof.Machine

/-- The straps of `s` read as the number of record i: LOADING, the own record present (R49, R177). -/
def numbered (s : State) (straps : BitVec 6) (i : Fin 63) : State :=
  { s with
    sl := { s.sl with number := straps, resetLow := false, station := .loading }
    db.standing := s.db.standing.set i { s.db.standing.get i with present := true } }

/-- The link controller started: INTEGRATING, ACTIVE, both counts 0 (R130). -/
def linkStarted (lc : Link) (rate500 : Bool) : Link :=
  { lc with
    started := true, rate500 := rate500, phase := .integrating, state := .active
    TEC := 0, REC := 0, recRun := 0, domRun := 0 }

/-- UNCONFIGURED entered with a reason: LC starts at a bit rate, a STATUS frame of page 0 is handed, and
the next is due in 10000 ticks (R130, R177, R178, R180). -/
def unconfigured (s : State) (reason : Reason) (code : Byte) (rate500 : Bool) : State :=
  { s with
    sl := { s.sl with station := .unconfigured, reason := reason, statusDue := s.tick + 10000 }
    lc := (linkStarted s.lc rate500).hand (statusOf s
      [0, 4, byte (match s.pc.state with | .idle => 0 | .play => 1 | .tilt => 2 | .slam => 3) +
        (if s.pc.stopped then 128 else 0), 0, 0, 0, byte s.own.toNat, code]) }

/-- The straps of `s` read 63 (R130, R177, R180). -/
def unnumbered (s : State) : State :=
  unconfigured { s with sl := { s.sl with number := 63, resetLow := false } } .badStation 1 false

/-- A channel as a power-on reset leaves it: OFF, no work, no fault, all counts 0 (R27). -/
def channelReset : Channel where
  state := .off
  repeats := 0
  holdWanted := false
  overflow := false
  heat := 0
  t := 0
  draw := 0
  phaseEnd := 0
  powerStart := 0
  holdStart := 0
  holdDraw := 0
  checkDue := none
  openPending := false
  openCount := 0
  faultKind := .none
  holdTimeouts := 0
  train := none

/-- A flipper record as either reset leaves it: in REST, its press mode EOS, EOS OK, not disabled, not
reduced, its counts 0, its hold-limit end none (R88), its ticks 0. -/
def flipperReset : Flipper where
  state := .rest
  timed := false
  phaseEnd := 0
  windowEnd := 0
  repowers := 0
  limitEnd := none
  reduced := false
  faulty := false
  closedCount := 0
  disabled := false
  periodStart := 0

/-- A station at the reset values of the manual, every block but LC, with the reset line at a level. -/
def ResetValues (t : State) (low : Bool) : Prop :=
  t.tick = 0 ∧ t.unit = 0 ∧ t.falling = [] ∧ t.powerEnded = [] ∧ t.bitDue = false ∧
    -- start loader (R177); its number and ticks are 0
    t.sl.station = .reset ∧ t.sl.reason = .none ∧ t.sl.resetLow = low ∧ t.sl.number = 0 ∧
    t.sl.joinEnd = 0 ∧ t.sl.statusDue = 0 ∧
    -- coil sequencer (R27)
    (∀ n, t.ch n = { channelReset with heat := (t.ch n).heat }) ∧ t.cs.queue = [] ∧
    t.cs.busyDrop = 0 ∧ t.cs.waitDrop = 0 ∧ t.cs.unchecked = 0 ∧
    -- sense converter (R37)
    t.sc.supply = 0 ∧ t.sc.supplyState = .low ∧ t.sc.lowCount = 0 ∧ t.sc.goodCount = 0 ∧
    (∀ n, t.sc.last.get n = 0 ∧ t.sc.waitCurrent.get n = none) ∧ t.sc.waitSupply = .none ∧
    t.sc.conv = none ∧
    -- draw budget (R71)
    t.db.table = [] ∧ (∀ i, t.db.standing.get i = ⟨0, 0, false⟩) ∧ t.db.claim = none ∧
    t.db.refresh = none ∧ t.db.deny = 0 ∧
    -- flippers (R88)
    (∀ f, t.fl.get f = flipperReset) ∧
    -- switches (R114)
    (∀ i, t.sw.sw.get i = ⟨.open, none, none⟩) ∧ t.sw.stuckCount = 0 ∧
    -- lamps and beat (R123, R129)
    (∀ l, t.lp.lamps.get l = ⟨.off, 0, 0, false, false, 0, 0, 0, false⟩) ∧ t.lp.beatOn = false ∧
    t.lp.phase = 0 ∧ t.lp.beat = 0 ∧ t.lp.pos = 0 ∧
    -- router (R169) and play control (R170)
    t.er.unmatched = 0 ∧ t.er.badCommand = 0 ∧
    (∀ i, t.cfg.filters.get i = .disabled) ∧ (∀ i, t.cfg.actions.get i = .notInUse) ∧
    t.pc.state = .idle ∧ t.pc.stopped = false ∧ t.pc.tiltDrop = 0

/-- LC at its reset values (R146, R160), but for the rate and the drive it may still owe. -/
def LinkReset (lc : Link) : Prop :=
  lc.started = false ∧ lc.phase = .integrating ∧ lc.state = .active ∧ lc.TEC = 0 ∧ lc.REC = 0 ∧
    (∀ i, lc.slots.get i = none) ∧ lc.outq = [] ∧ lc.txDrop = 0 ∧ lc.recovery = 0 ∧
    lc.partialRun = 0 ∧ lc.rx = none ∧ lc.err = none ∧ lc.sigLeft = 0 ∧ lc.sigDominant = false ∧
    lc.domRun = 0 ∧ lc.recRun = 0

/-- The station after a power-on reset, its straps not yet read: the reset values, heat 0, LC at 250 kbit/s
and driving nothing; the lines and the waiting commands are the outside's. -/
def PoweredOn (s t : State) (low : Bool) : Prop :=
  ResetValues t low ∧ LinkReset t.lc ∧ (∀ n, (t.ch n).heat = 0) ∧ t.lines = s.lines ∧
    t.pending = s.pending ∧ t.cfg = .blank ∧ t.lc.rate500 = false ∧ t.lc.stopLeft = 0 ∧
    t.lc.resetLeft = 0

/-- The dominant bits LC still drives once the reset line is asserted (R146): 8 of a transmitter, the rest
of a dominant error signal, none otherwise. -/
def resetBits (lc : Link) : Nat :=
  if lc.onWireSlot.isSome ∧ lc.err = none then 8
  else if (if lc.sigLeft = 8 then decide (lc.state = .active) else lc.sigDominant) then lc.sigLeft
  else 0

end Sys2Proof.Machine

/-- POWER_ON_RESET completes in every state. With the reset line low it leaves every block at its reset
values; with the line high the straps are read from there: 0 to 62 is the number and LOADING, 63 is
UNCONFIGURED with reason BAD_STATION (R27, R37, R71, R88, R114, R123, R129, R146, R160, R169, R170,
R177, R180). RESET_LINE_ASSERT completes in every state and leaves the same values but each output's heat,
which is kept, and LC drives a STOP pattern, the end of a frame or of an error signal on (R28, R146).
RESET_LINE_RELEASE completes in RESET with the line low, and reads the straps (R177). The figures the
manual gives no reset value are 0, the settings blank, the input lines and waiting commands kept (log 4,
log 5); that the drive keeps its rate, and who counts as the transmitter, is read from R146 (log 26). The
model's own choices (DESIGN CHOICE, log 26): a STOP pattern handed or an active error signal due, its first
bit still to come at the assertion, is driven whole, and a drive left over goes on past LC's start. -/
def Obligations.ResetsLeaveTheResetValues : Prop :=
  (∀ (s : State) (straps : BitVec 6),
    ∃ t, exec (.powerOnReset false straps) s = .next t ∧ PoweredOn s t true) ∧
  (∀ (s : State) (straps : BitVec 6) (i : Fin 63), Pre.number straps i →
    ∃ t, exec (.powerOnReset true straps) s = .next (numbered t straps i) ∧ PoweredOn s t false) ∧
  (∀ (s : State),
    ∃ t, exec (.powerOnReset true 63) s = .next (unnumbered t) ∧ PoweredOn s t false) ∧
  (∀ (s : State), ∃ t, exec .resetLineAssert s = .next t ∧ ResetValues t true ∧ LinkReset t.lc ∧
    (∀ n, (t.ch n).heat = (s.ch n).heat) ∧ t.lines = s.lines ∧ t.pending = s.pending ∧
    t.cfg = .blank ∧ t.lc.rate500 = s.lc.rate500 ∧ t.lc.stopLeft = s.lc.stopLeft ∧
    t.lc.resetLeft = if 0 < s.lc.stopLeft then s.lc.resetLeft
      else max s.lc.resetLeft (resetBits s.lc)) ∧
  (∀ (s : State) (straps : BitVec 6) (i : Fin 63), s.sl.station = .reset → s.sl.resetLow = true →
    Pre.number straps i →
    exec (.resetLineRelease straps) s = .next (numbered s straps i)) ∧
  (∀ (s : State), s.sl.station = .reset → s.sl.resetLow = true →
    exec (.resetLineRelease 63) s = .next (unnumbered s))

namespace Sys2Proof.Machine

/-- The byte of an image at an address, and two of them as a number (R182). -/
def imageByte (image : List Byte) (a : Nat) : Nat := (image.getD a 0).toNat
def imageWord (image : List Byte) (a : Nat) : Nat := imageByte image a * 256 + imageByte image (a + 1)

/-- A bit of the byte at an address. -/
abbrev ImageBit (image : List Byte) (a i : Nat) : Prop := imageByte image a / 2 ^ i % 2 = 1

/-- The byte at an address as a signed number (R182). -/
def imageSigned (image : List Byte) (a : Nat) : Int :=
  if imageByte image a < 128 then imageByte image a else imageByte image a - 256

/-- A number lies in a range. -/
abbrev Between (low n high : Nat) : Prop := low ≤ n ∧ n ≤ high

/-- Station settings (Tables 12-1 and 12-5). -/
def StationHolds (im : List Byte) : Prop :=
  Between 100 (imageWord im 4) 20000 ∧ imageWord im 6 ≤ imageWord im 4 ∧
    Between 1 (imageWord im 8) 20000 ∧ Between 100 (imageWord im 10) 1023 ∧
    imageWord im 12 ≤ 1003 ∧ (-32 ≤ imageSigned im 14 ∧ imageSigned im 14 ≤ 31) ∧
    Between 1 (imageByte im 15) 8 ∧ Between 1 (imageWord im 16) 1000 ∧ Between 1 (imageByte im 18) 16

/-- The mode code of output n: 0 UNUSED, 1 PULSE, 2 PULSE_HOLD, 3 FLIPPER. -/
def modeCode (im : List Byte) (n : Nat) : Nat := imageByte im (19 + 20 * n) % 4

/-- The coil profile at address a (Table 12-1). -/
def ProfileHolds (im : List Byte) (a : Nat) : Prop :=
  let mode := imageByte im a % 4
  (-32 ≤ imageSigned im (a + 19) ∧ imageSigned im (a + 19) ≤ 31) ∧
    Between 1 (imageWord im (a + 17)) 4095 ∧ imageWord im (a + 15) ≤ 4095 ∧
    (mode = 3 → 1 ≤ imageWord im (a + 10)) ∧
    (mode = 1 ∨ mode = 2 →
      1 ≤ imageByte im a / 4 % 4 ∧ Between 1 (imageWord im (a + 1)) 2000 ∧
        Between 1 (imageByte im (a + 3)) 15 ∧ 1 ≤ imageWord im (a + 4) ∧
        imageWord im (a + 6) ≤ 10000 ∧ Between 10 (imageWord im (a + 8)) 2550 ∧
        1 ≤ imageWord im (a + 10) ∧ 2 * imageWord im (a + 1) + imageWord im (a + 6) ≤ 10000)

/-- The flipper record at address a names output n, as its power or its hold output. -/
def NamesOutput (im : List Byte) (a n : Nat) : Prop :=
  ImageBit im a 7 ∧ (imageByte im (a + 2) = n ∨ imageByte im (a + 3) = n ∧ n ≠ 255)

/-- The flipper record at address a, checked where it is in use (R72, Table 12-1, log 16). -/
def FlipperHolds (im : List Byte) (a : Nat) : Prop :=
  ImageBit im a 7 →
    (imageByte im (a + 2) ≤ 15 ∧ modeCode im (imageByte im (a + 2)) = 3) ∧
    (imageByte im (a + 3) = 255 ∧ Between 1 (imageByte im (a + 10) % 16) 15 ∨
      imageByte im (a + 3) ≤ 15 ∧ modeCode im (imageByte im (a + 3)) = 3 ∧
        imageByte im (a + 3) ≠ imageByte im (a + 2)) ∧
    imageByte im a % 32 ≤ 23 ∧ (imageByte im (a + 1) ≤ 23 ∨ imageByte im (a + 1) = 255) ∧
    imageByte im a % 32 ≠ imageByte im (a + 1) ∧
    Between 1 (imageWord im (a + 4)) 1000 ∧ Between 1 (imageWord im (a + 6)) (imageWord im (a + 4)) ∧
    Between 1 (imageWord im (a + 8)) (imageWord im (a + 4)) ∧ 1 ≤ imageWord im (a + 11)

/-- Action entry i is in use. -/
abbrev ActionUsed (im : List Byte) (i : Nat) : Prop := i ≤ 31 ∧ imageByte im (751 + 7 * i) ≠ 0

/-- The switch rule at address a (R108, Table 12-1). -/
def RuleHolds (im : List Byte) (a : Nat) : Prop :=
  ImageBit im a 0 →
    imageByte im (a + 1) ≤ 23 ∧ (ImageBit im a 2 ∨ ImageBit im a 3) ∧
      (ImageBit im a 3 → Between 1 (imageByte im a / 16 % 8) 6) ∧
      (ImageBit im a 2 → ActionUsed im (imageByte im (a + 2)))

/-- The filter at address a (R165, Table 12-1). -/
def FilterHolds (im : List Byte) (a : Nat) : Prop :=
  imageByte im a ≤ 2 ∧
    (imageByte im a = 1 → ¬ ImageBit im (a + 1) 0 ∧ ¬ ImageBit im (a + 4) 0 ∧
      ActionUsed im (imageByte im (a + 3)) ∧ ActionUsed im (imageByte im (a + 6))) ∧
    (imageByte im a = 2 → ActionUsed im (imageByte im (a + 3)))

/-- The action at address a (R167, Table 12-1). -/
def ActionHolds (im : List Byte) (a : Nat) : Prop :=
  imageByte im a ≤ 11 ∧
    (Between 1 (imageByte im a) 5 → imageByte im (a + 1) ≤ 15 ∧
      (modeCode im (imageByte im (a + 1)) = 1 ∨ modeCode im (imageByte im (a + 1)) = 2)) ∧
    (imageByte im a = 4 → (ImageBit im (a + 2) 0 ∨ 1 ≤ imageByte im (a + 3)) ∧
      Between 10 (imageWord im (a + 4)) 10000 ∧ imageByte im (a + 2) / 4 % 8 ≤ 4) ∧
    (imageByte im a = 5 → imageByte im (a + 2) ≤ 1) ∧
    (imageByte im a = 6 → imageByte im (a + 1) ≤ 15 ∧ imageByte im (a + 2) ≤ 2 ∧
      imageByte im (a + 3) ≤ 15)

/-- Check 4: every field in its range, and the cross-checks of Table 12-1. -/
def FieldsHold (im : List Byte) : Prop :=
  StationHolds im ∧ (∀ n, n < 16 → ProfileHolds im (19 + 20 * n)) ∧
    (∀ i, i < 4 → FlipperHolds im (339 + 13 * i)) ∧
    (∀ i j n, i < 4 → j < 4 → i ≠ j →
      ¬ (NamesOutput im (339 + 13 * i) n ∧ NamesOutput im (339 + 13 * j) n)) ∧
    (∀ n, n < 16 → modeCode im n = 3 → ∃ i, i < 4 ∧ NamesOutput im (339 + 13 * i) n) ∧
    (∀ i, i < 24 → 1 ≤ imageByte im (391 + 5 * i + 1) ∧ 1 ≤ imageByte im (391 + 5 * i + 2) ∧
      (imageWord im (391 + 5 * i + 3) = 0 ∨ 10 ≤ imageWord im (391 + 5 * i + 3))) ∧
    (∀ i, i < 32 → RuleHolds im (511 + 4 * i)) ∧ (∀ i, i < 16 → FilterHolds im (639 + 7 * i)) ∧
    ∀ i, i < 32 → ActionHolds im (751 + 7 * i)

/-- The sum of bytes 0 to 990 (R178). -/
def sumOf (im : List Byte) : Nat := ((List.range 991).map (imageByte im)).sum % 65536

/-- The burst size of a two-bit code (Table 12-6). -/
def sizeOf_ (code : Nat) : Nat :=
  if code = 0 then 1 else if code = 1 then 2 else if code = 2 then 4 else 8

/-- The coil profile read from address a (Table 12-6). -/
def profileAt (im : List Byte) (a : Nat) : Profile where
  mode := if imageByte im a % 4 = 0 then .unused else if imageByte im a % 4 = 1 then .pulse
    else if imageByte im a % 4 = 2 then .pulseHold else .flipper
  cls := imageByte im a / 4 % 4
  burst := sizeOf_ (imageByte im a / 16 % 4)
  depth := imageByte im a / 64
  base := imageWord im (a + 1)
  duty := imageByte im (a + 3)
  maxHold := imageWord im (a + 4)
  cool := imageWord im (a + 6)
  res := imageWord im (a + 8)
  heatLimit := imageWord im (a + 10)
  heatDecay := imageByte im (a + 12)
  waitLimit := if imageWord im (a + 13) = 0 then none else some (imageWord im (a + 13))
  openThreshold := imageWord im (a + 15)
  trip := imageWord im (a + 17)
  offset := imageSigned im (a + 19)

/-- The flipper record read from address a (Table 12-6). -/
def FlipperAt (im : List Byte) (a : Nat) (f : FlipSettings) : Prop :=
  (f.inUse = true ↔ ImageBit im a 7) ∧
    (f.inUse = true →
      f.button.val = imageByte im a % 32 ∧
        (f.eos.map (·.val) =
          if imageByte im (a + 1) = 255 then none else some (imageByte im (a + 1))) ∧
        f.power.val = imageByte im (a + 2) ∧
        (f.hold.map (·.val) =
          if imageByte im (a + 3) = 255 then none else some (imageByte im (a + 3))) ∧
        f.maxPower = imageWord im (a + 4) ∧ f.minPower = imageWord im (a + 6) ∧
        f.softPower = imageWord im (a + 8) ∧ f.maxRepowers = imageByte im (a + 10) / 16 % 4 ∧
        f.duty = imageByte im (a + 10) % 16 ∧ f.holdLimit = imageWord im (a + 11))

/-- The switch setting read from address a (Table 12-6). -/
def switchAt (im : List Byte) (a : Nat) : SwitchSettings where
  invert := decide (ImageBit im a 0)
  closeDebounce := imageByte im (a + 1)
  openDebounce := imageByte im (a + 2)
  stuckCheck := if imageWord im (a + 3) = 0 then none else some (imageWord im (a + 3))

/-- The switch rule read from address a (Table 12-6). -/
def RuleAt (im : List Byte) (a : Nat) (r : Rule) : Prop :=
  (r.inUse = true ↔ ImageBit im a 0) ∧
    (r.inUse = true →
      r.sw.val = imageByte im (a + 1) ∧ (r.close = true ↔ ImageBit im a 1) ∧
        (r.action.map (·.val) = if ImageBit im a 2 then some (imageByte im (a + 2)) else none) ∧
        (r.event.map (fun e => (e.1.toNat, e.2.toNat)) =
          if ImageBit im a 3 then some (imageByte im (a + 3), imageByte im a / 16 % 8) else none))

/-- The filter read from address a (Table 12-6). -/
def FilterAt (im : List Byte) (a : Nat) (g : Filter) : Prop :=
  (imageByte im a = 0 → g = .disabled) ∧
    (imageByte im a = 1 → ∃ v x w y, g = .list v x w y ∧ v.toNat = imageWord im (a + 1) ∧
      x.val = imageByte im (a + 3) ∧ w.toNat = imageWord im (a + 4) ∧ y.val = imageByte im (a + 6)) ∧
    (imageByte im a = 2 → ∃ v m x, g = .mask v m x ∧ v.toNat = imageWord im (a + 1) ∧
      m.toNat = imageWord im (a + 4) ∧ x.val = imageByte im (a + 3))

/-- The action read from address a (Table 12-6). -/
def ActionAt (im : List Byte) (a : Nat) (act : Action) : Prop :=
  match imageByte im a with
  | 0 => act = .notInUse
  | 1 => ∃ n : Out, n.val = imageByte im (a + 1) ∧ act = .fire n
  | 2 => ∃ n : Out, n.val = imageByte im (a + 1) ∧ act = .hold n
  | 3 => ∃ n : Out, n.val = imageByte im (a + 1) ∧ act = .release n
  | 4 => ∃ n : Out, n.val = imageByte im (a + 1) ∧ act = .train n
      ⟨decide (ImageBit im (a + 2) 0), imageByte im (a + 3), imageWord im (a + 4),
        if imageByte im (a + 2) / 4 % 8 = 0 then none
          else some (sizeOf_ (imageByte im (a + 2) / 4 % 8 - 1)),
        if ImageBit im (a + 2) 1 then some (byte (imageByte im (a + 6))) else none⟩
  | 5 => ∃ n : Out, n.val = imageByte im (a + 1) ∧
      act = .trainStop n (decide (imageByte im (a + 2) = 1))
  | 6 => ∃ (l : Lamp) (mode : LampMode), l.val = imageByte im (a + 1) ∧
      mode = (if imageByte im (a + 2) = 0 then .off else if imageByte im (a + 2) = 1 then .on
        else .flash) ∧
      act = .lampSet l mode (imageByte im (a + 3)) (BitVec.ofNat 16 (imageWord im (a + 4)))
  | 7 => act = .raiseTilt
  | 8 => act = .raiseSlam
  | 9 => act = .tableStop
  | 10 => act = .gameStart
  | 11 => act = .gameOver
  | _ => False

end Sys2Proof.Machine

/-- The checks of an image in their order: the format number, the length, the sum, then every field and
cross-check of Table 12-1 (R72, R108, R165, R167, R178). The layout of Tables 12-5 and 12-6: what an
accepted image says of each setting, byte by byte (R182). -/
def Obligations.ImageChecksAndLayout : Prop :=
  (∀ (im : List Byte), im.length = 993 →
    (imageByte im 0 ≠ 1 ∨ imageWord im 1 ≠ 993 → imageReason im = .format) ∧
    (imageByte im 0 = 1 → imageWord im 1 = 993 →
      (sumOf im ≠ imageWord im 991 → imageReason im = .sum) ∧
      (sumOf im = imageWord im 991 →
        (¬ FieldsHold im → imageReason im = .field) ∧
        (FieldsHold im → imageReason im = .none)))) ∧
  (∀ (im : List Byte), im.length = 993 → imageReason im = .none →
    (readSettings im).station =
      ⟨decide (ImageBit im 3 0), decide (ImageBit im 3 1), imageWord im 4, imageWord im 6,
        imageWord im 8, imageWord im 10, imageWord im 12, imageSigned im 14, imageByte im 15,
        imageWord im 16, imageByte im 18⟩ ∧
    (∀ n : Out, (readSettings im).profiles.get n = profileAt im (19 + 20 * n.val)) ∧
    (∀ f : Flip, FlipperAt im (339 + 13 * f.val) ((readSettings im).flippers.get f)) ∧
    (∀ i : Sw, (readSettings im).switches.get i = switchAt im (391 + 5 * i.val)) ∧
    (∀ i : Fin 32, RuleAt im (511 + 4 * i.val) ((readSettings im).rules.get i)) ∧
    (∀ i : Fin 16, FilterAt im (639 + 7 * i.val) ((readSettings im).filters.get i)) ∧
    (∀ i : Fin 32, ActionAt im (751 + 7 * i.val) ((readSettings im).actions.get i)) ∧
    ∀ l : Lamp, (readSettings im).lamps.get l =
      ⟨decide (ImageBit im (975 + l.val) 7), decide (ImageBit im (975 + l.val) 6),
        imageByte im (975 + l.val) % 16⟩)

namespace Sys2Proof.Machine

/-- An image that passes the four checks in LOADING (R178). -/
abbrev Pre.accepted (s : State) (image : List Byte) : Prop :=
  s.sl.station = .loading ∧ imageReason (clocked 993 image) = .none

/-- An image that fails a check in LOADING (R178). -/
abbrev Pre.refusedImage (s : State) (image : List Byte) (reason : Reason) : Prop :=
  s.sl.station = .loading ∧ imageReason (clocked 993 image) = reason

end Sys2Proof.Machine

/-- IMAGE_CHECK of a good image: JOINING for 3000 ticks, LC started INTEGRATING at the image's bit rate,
each output in the state its mode gives, the beat timer running from phase 0, the settings those of the
image, a switch whose raw level is closed in CLOSING, heat kept. A refused image is applied in no part: the
station is in UNCONFIGURED with the reason, LC at 250 kbit/s, or at the rate of the image's settings flags
where check 3 or 4 refused it. What the memory does not drive reads as 255 (R27, R114, R115, R124, R130,
R178, R179, R180). -/
def Obligations.ImageIsAcceptedOrRefused : Prop :=
  (∀ (s : State) (image : List Byte), Pre.accepted s image →
    ∃ t, exec (.imageCheck image) s = .next t ∧
      t = { s with cfg := t.cfg, sl := t.sl, cs := { s.cs with chan := t.cs.chan }, lp := t.lp,
                   sw := { s.sw with sw := t.sw.sw }, lc := t.lc } ∧
      t.cfg = readSettings (clocked 993 image) ∧
      t.sl = { s.sl with station := .joining, joinEnd := s.tick + 3000 } ∧
      t.lc = linkStarted s.lc t.cfg.station.rate500 ∧
      (∀ n, t.ch n = { s.ch n with
        state := if (t.prof n).mode = .flipper then .flipper else .off }) ∧
      t.lp.beatOn = true ∧ t.lp.phase = 0 ∧ t.lp.beat = 0 ∧ t.lp.pos = 0 ∧
      (∀ l, t.lp.lamps.get l =
        ⟨.off, (t.cfg.lamps.get l).initial, 0, (t.cfg.lamps.get l).preheat,
          (t.cfg.lamps.get l).tiltGroup, 0, 0, 0, false⟩) ∧
      (∀ i, t.sw.sw.get i =
        if s.lines.sw.get i = (t.cfg.switches.get i).invert then
          ⟨.closing, some (s.tick + BitVec.ofNat 32 (t.cfg.switches.get i).closeDebounce), none⟩
        else ⟨.open, none, none⟩)) ∧
  (∀ (s : State) (image : List Byte), Pre.refusedImage s image .format →
    exec (.imageCheck image) s = .next (unconfigured s .format 2 false)) ∧
  (∀ (s : State) (image : List Byte) (reason : Reason), Pre.refusedImage s image reason →
    reason = .sum ∨ reason = .field →
    exec (.imageCheck image) s = .next (unconfigured s reason (if reason = .sum then 3 else 4)
      (decide (ImageBit (clocked 993 image) 3 0)))) ∧
  (∀ (image : List Byte), (clocked 993 image).length = 993 ∧
    ∀ a, a < 993 → imageByte (clocked 993 image) a =
      if a < image.length then imageByte image a else 255)

namespace Sys2Proof.Machine

/-- JOINING has run its 3000 ticks (R179). -/
abbrev Pre.joined (s : State) : Prop :=
  s.sl.station = .joining ∧ reached s.tick s.sl.joinEnd = true

/-- The next STATUS frame of UNCONFIGURED is due (R180). -/
abbrev Pre.statusDue (s : State) : Prop :=
  s.sl.station = .unconfigured ∧ reached s.tick s.sl.statusDue = true

end Sys2Proof.Machine

/-- JOINING_END enters RUN, starts the lamp period with the windows of L0 and L15, and in NORMAL hands
the STANDING frame and starts the refresh timer (R65, R116, R179). UNCONFIGURED_STATUS hands a STATUS
frame of page 0 and sets the next for 10000 ticks after the mark it fell at (R180). -/
def Obligations.StationTimersRunOut : Prop :=
  (∀ (s : State), Pre.joined s →
    exec .joiningEnd s = .next (announced { s with
      sl := { s.sl with station := .run }
      lp := { s.lp with pos := 0 }
      falling := s.falling ++ [.window 0, .window 15] } s.ownDraw)) ∧
  (∀ (s : State), Pre.statusDue s →
    exec .unconfiguredStatus s = .next { s with
      lc := (pageShown s 0).foldl (fun lc p => lc.hand (statusOf s p)) s.lc
      sl := { s.sl with statusDue := s.sl.statusDue + 10000 } })

namespace Sys2Proof.Machine

/-- What the station's own time brings at this instant (R1): each command and when it is due. -/
def Due (s : State) : Instr → Prop
  | .supplySlot => .supplySlot ∈ s.falling
  | .heatDecayPass => .heatDecay ∈ s.falling
  | .windowStart l => .window l ∈ s.falling ∧ s.sl.station = .run
  | .beatPhaseZero => ∃ beat, .beatZero beat ∈ s.falling
  | .beatWithdraw => ∃ f fails, s.lc.slots.get 1 = some ⟨f, false, fails⟩ ∧
      (4 ≤ s.lp.phase ∨ pByte f.payload 1 ≠ s.lp.beat.toNat)
  | .joiningEnd => Pre.joined s
  | .unconfiguredStatus => Pre.statusDue s
  | .powerEnd n => Pre.powerEnd s n
  | .trainPulseEnd n => ∃ tr, Pre.pulseEnd s n tr
  | .maxHoldExpiry n => Pre.over s n .hold
  | .coolEnd n => Pre.over s n .cool ∧ (s.ch n).train = none
  | .burstCoolEnd n => Pre.over s n .cool ∧ (s.ch n).train ≠ none
  | .burstPulseStart n => ∃ tr b, Pre.pulseStart s n tr b
  | .openCheckRequest n => ∃ due, Pre.check s n due
  | .guardPassed n => ∃ e ∈ s.cs.queue, e.output = n ∧ e.guard = false ∧
      10 * s.cfg.station.skipGuard < (s.tick - e.arrival).toNat
  | .waitLimitExpiry n => ∃ e ∈ s.cs.queue, e.output = n ∧ ∃ w, (s.prof n).waitLimit = some w ∧
      10 * w ≤ (s.tick - e.arrival).toNat
  | .entryExpiry => ∃ e ∈ s.db.table, reached s.tick e.expiry = true
  | .ageingOut i => Pre.ageing s i
  | .refreshExpiry => ∃ due, Pre.refresh s due
  | .debounceEnd sw => ∃ st due, Pre.debounce s sw st due
  | .stuckEnd sw => ∃ due, Pre.stuck s sw due
  | .flipperWindowEnd f => ∃ eos, Pre.windowEnd s f eos
  | .flipperPowerEnd f => Pre.flipperEnd s f .power
  | .repowerEnd f => Pre.flipperEnd s f .repower
  | .holdLimitEnd f => ∃ due, Pre.holdLimit s f due
  | .supplyReadingEnd raw => s.sc.conv = some ⟨.supply, 0⟩ ∧ raw = s.lines.supplyRaw
  | .currentConversionEnd raw => ∃ n phase, s.sc.conv = some ⟨.current n phase, 0⟩ ∧
      raw = s.lines.currentRaw.get n
  | _ => False

/-- A tick begins (R1): the tick count rises, the lamp period position advances in RUN and the beat timer
while it runs; a supply slot falls at every 10th tick, a heat decay pass at every 100th, a lamp window at
its position, and phase 0 of a beat where the timer reaches it (R31, R44, R116, R124, R125). -/
def tickBegun (s : State) : State :=
  let pos := if s.sl.station = .run then (s.lp.pos + 1) % 15 else s.lp.pos
  let zero := s.lp.beatOn = true ∧ s.lp.phase = 319
  let active := s.sl.station = .joining ∨ s.sl.station = .run
  { s with
    tick := s.tick + 1
    unit := 0
    falling :=
      (if (active ∨ s.sl.station = .unconfigured) ∧ (s.tick + 1).toNat % 10 = 0 then
        [.supplySlot] else []) ++
      (if active ∧ (s.tick + 1).toNat % 100 = 0 then [.heatDecay] else []) ++
      (if s.sl.station = .run then
        ((List.finRange 16).filter fun l => l.val % 15 = pos).map .window else []) ++
      (if zero then [.beatZero (s.lp.beat + 1)] else [])
    lp := { s.lp with
      pos := pos
      phase := if s.lp.beatOn = true then if s.lp.phase = 319 then 0 else s.lp.phase + 1
        else s.lp.phase
      beat := if zero then s.lp.beat + 1 else s.lp.beat } }

/-- 2 µs pass: 50 of these to a tick; a conversion runs on, and a bit of the link falls at every one at
500 kbit/s and at every other at 250 kbit/s, while LC takes part or still drives (R29, R130, R146). No end
of POWER is of this instant any more (R16, log 44). -/
def unitPassed (s : State) : State :=
  let t := if s.unit < 49 then { s with unit := s.unit + 1 } else tickBegun s
  { t with
    sc := { s.sc with conv := s.sc.conv.map fun c => { c with left := c.left - 1 } }
    powerEnded := []
    bitDue := decide ((s.lc.started = true ∨ 0 < s.lc.stopLeft ∨ 0 < s.lc.resetLeft) ∧
      (s.lc.rate500 = true ∨ t.unit % 2 = 0)) }

end Sys2Proof.Machine

/-- The passing of time, a step with no command waiting. What is due at an instant is what the rules make
fall or run out then (R1, R11, R14, R16, R31, R44, R47, R51, R65, R77, R103, R116, R125, R179, R180). With
something due, one due command is put in the queue, or the link's bit is taken; with nothing due, 2 µs
pass. The model's choices: that a due command is queued and taken one step later (log 1); their free order
(log 2); that a conversion ends with the level its input line then has (log 7); that the link's bits fall
on a grid of 2 µs from the tick's start, at every other unit at 250 kbit/s, with no realignment (log 20);
that a slot or a pass at the very tick of an acceptance is not due (log 32); that the beat timer wraps as
the tick begins, before a BEAT of that instant (log 30). -/
def Obligations.TimePassesOnAnEmptyQueue : Prop :=
  (∀ (s : State) (c : Instr), c ∈ dueCommands s ↔ Due s c) ∧
  (∀ (s : State), s.pending = [] → s.bitDue = false → (∀ c, ¬ Due s c) →
    step s = .next (unitPassed s)) ∧
  (∀ (s : State), s.pending = [] → s.bitDue = false → (∃ c, Due s c) →
    ∃ c p, Due s c ∧ step s = .next { s with picks := p, pending := [c] }) ∧
  (∀ (s : State), s.pending = [] → s.bitDue = true → (∀ c, ¬ Due s c) →
    step s = .next (linkBit s)) ∧
  (∀ (s : State), s.pending = [] → s.bitDue = true → (∃ c, Due s c) →
    ∃ p, (∃ c, Due s c ∧ step s = .next { s with picks := p, pending := [c] }) ∨
      step s = .next (linkBit { s with picks := p }))
end

