-- ==== Sys2Proof/Laws/State.lean ====
section
/-!
SUPPORT. Reading a bank after it is written, and what each one-record update of the state leaves and
writes: one lemma for each field.
-/
namespace Sys2Proof

namespace Bank

variable {α β : Type} {n : Nat}

@[simp] theorem get_set_self (b : Bank α n) (i : Fin n) (x : α) : (b.set i x).get i = x := by
  simp [get, set]

theorem get_set_ne (b : Bank α n) {i j : Fin n} (x : α) (h : j ≠ i) :
    (b.set i x).get j = b.get j := by
  have : i.val ≠ j.val := fun e => h (Fin.ext e.symm)
  simp [get, set, List.getElem_set_ne this]

theorem get_set (b : Bank α n) (i j : Fin n) (x : α) :
    (b.set i x).get j = if j = i then x else b.get j := by
  by_cases h : j = i
  · subst h; simp
  · simp [h, get_set_ne]

@[simp] theorem get_fill (i : Fin n) (x : α) : (fill n x).get i = x := by
  simp [get, fill]

@[simp] theorem get_ofFn (f : Fin n → β) (i : Fin n) : (ofFn f).get i = f i := by
  simp [get, ofFn]

@[simp] theorem get_mapIdx (b : Bank α n) (f : Fin n → α → β) (i : Fin n) :
    (b.mapIdx f).get i = f i (b.get i) := by
  simp [mapIdx]

/-- Banks with equal records are equal. -/
theorem ext_get {a b : Bank α n} (h : ∀ i, a.get i = b.get i) : a = b := by
  cases a with
  | mk xs hx =>
    cases b with
    | mk ys hy =>
      have : xs = ys := List.ext_getElem (hx.trans hy.symm) fun i h₁ _ => h ⟨i, hx ▸ h₁⟩
      subst this; rfl

theorem set_get (b : Bank α n) (i : Fin n) : b.set i (b.get i) = b := by
  apply ext_get
  intro j
  rw [get_set]
  split <;> simp_all

theorem set_set (b : Bank α n) (i : Fin n) (x y : α) : (b.set i x).set i y = b.set i y := by
  apply ext_get
  intro j
  simp only [get_set]
  split <;> rfl

end Bank

namespace Machine

/-! ### State.setCh -/

@[simp] theorem setCh_tick (s : State) (n : Out) (c : Channel) :
    (s.setCh n c).tick = s.tick := rfl

@[simp] theorem setCh_unit (s : State) (n : Out) (c : Channel) :
    (s.setCh n c).unit = s.unit := rfl

@[simp] theorem setCh_bitDue (s : State) (n : Out) (c : Channel) :
    (s.setCh n c).bitDue = s.bitDue := rfl

@[simp] theorem setCh_falling (s : State) (n : Out) (c : Channel) :
    (s.setCh n c).falling = s.falling := rfl
@[simp] theorem setCh_powerEnded (s : State) (n : Out) (c : Channel) :
    (s.setCh n c).powerEnded = s.powerEnded := rfl

@[simp] theorem setCh_picks (s : State) (n : Out) (c : Channel) :
    (s.setCh n c).picks = s.picks := rfl

@[simp] theorem setCh_lines (s : State) (n : Out) (c : Channel) :
    (s.setCh n c).lines = s.lines := rfl

@[simp] theorem setCh_cfg (s : State) (n : Out) (c : Channel) :
    (s.setCh n c).cfg = s.cfg := rfl

@[simp] theorem setCh_sl (s : State) (n : Out) (c : Channel) :
    (s.setCh n c).sl = s.sl := rfl

@[simp] theorem setCh_cs (s : State) (n : Out) (c : Channel) :
    (s.setCh n c).cs = { s.cs with chan := s.cs.chan.set n c } := rfl

@[simp] theorem setCh_sc (s : State) (n : Out) (c : Channel) :
    (s.setCh n c).sc = s.sc := rfl

@[simp] theorem setCh_db (s : State) (n : Out) (c : Channel) :
    (s.setCh n c).db = s.db := rfl

@[simp] theorem setCh_fl (s : State) (n : Out) (c : Channel) :
    (s.setCh n c).fl = s.fl := rfl

@[simp] theorem setCh_sw (s : State) (n : Out) (c : Channel) :
    (s.setCh n c).sw = s.sw := rfl

@[simp] theorem setCh_lp (s : State) (n : Out) (c : Channel) :
    (s.setCh n c).lp = s.lp := rfl

@[simp] theorem setCh_lc (s : State) (n : Out) (c : Channel) :
    (s.setCh n c).lc = s.lc := rfl

@[simp] theorem setCh_er (s : State) (n : Out) (c : Channel) :
    (s.setCh n c).er = s.er := rfl

@[simp] theorem setCh_pc (s : State) (n : Out) (c : Channel) :
    (s.setCh n c).pc = s.pc := rfl

@[simp] theorem setCh_pending (s : State) (n : Out) (c : Channel) :
    (s.setCh n c).pending = s.pending := rfl

/-! ### State.setFlip -/

@[simp] theorem setFlip_tick (s : State) (f : Flip) (r : Flipper) :
    (s.setFlip f r).tick = s.tick := rfl

@[simp] theorem setFlip_unit (s : State) (f : Flip) (r : Flipper) :
    (s.setFlip f r).unit = s.unit := rfl

@[simp] theorem setFlip_bitDue (s : State) (f : Flip) (r : Flipper) :
    (s.setFlip f r).bitDue = s.bitDue := rfl

@[simp] theorem setFlip_falling (s : State) (f : Flip) (r : Flipper) :
    (s.setFlip f r).falling = s.falling := rfl
@[simp] theorem setFlip_powerEnded (s : State) (f : Flip) (r : Flipper) :
    (s.setFlip f r).powerEnded = s.powerEnded := rfl

@[simp] theorem setFlip_picks (s : State) (f : Flip) (r : Flipper) :
    (s.setFlip f r).picks = s.picks := rfl

@[simp] theorem setFlip_lines (s : State) (f : Flip) (r : Flipper) :
    (s.setFlip f r).lines = s.lines := rfl

@[simp] theorem setFlip_cfg (s : State) (f : Flip) (r : Flipper) :
    (s.setFlip f r).cfg = s.cfg := rfl

@[simp] theorem setFlip_sl (s : State) (f : Flip) (r : Flipper) :
    (s.setFlip f r).sl = s.sl := rfl

@[simp] theorem setFlip_cs (s : State) (f : Flip) (r : Flipper) :
    (s.setFlip f r).cs = s.cs := rfl

@[simp] theorem setFlip_sc (s : State) (f : Flip) (r : Flipper) :
    (s.setFlip f r).sc = s.sc := rfl

@[simp] theorem setFlip_db (s : State) (f : Flip) (r : Flipper) :
    (s.setFlip f r).db = s.db := rfl

@[simp] theorem setFlip_fl (s : State) (f : Flip) (r : Flipper) :
    (s.setFlip f r).fl = s.fl.set f r := rfl

@[simp] theorem setFlip_sw (s : State) (f : Flip) (r : Flipper) :
    (s.setFlip f r).sw = s.sw := rfl

@[simp] theorem setFlip_lp (s : State) (f : Flip) (r : Flipper) :
    (s.setFlip f r).lp = s.lp := rfl

@[simp] theorem setFlip_lc (s : State) (f : Flip) (r : Flipper) :
    (s.setFlip f r).lc = s.lc := rfl

@[simp] theorem setFlip_er (s : State) (f : Flip) (r : Flipper) :
    (s.setFlip f r).er = s.er := rfl

@[simp] theorem setFlip_pc (s : State) (f : Flip) (r : Flipper) :
    (s.setFlip f r).pc = s.pc := rfl

@[simp] theorem setFlip_pending (s : State) (f : Flip) (r : Flipper) :
    (s.setFlip f r).pending = s.pending := rfl

/-! ### State.setSw -/

@[simp] theorem setSw_tick (s : State) (i : Sw) (r : Switch) :
    (s.setSw i r).tick = s.tick := rfl

@[simp] theorem setSw_unit (s : State) (i : Sw) (r : Switch) :
    (s.setSw i r).unit = s.unit := rfl

@[simp] theorem setSw_bitDue (s : State) (i : Sw) (r : Switch) :
    (s.setSw i r).bitDue = s.bitDue := rfl

@[simp] theorem setSw_falling (s : State) (i : Sw) (r : Switch) :
    (s.setSw i r).falling = s.falling := rfl
@[simp] theorem setSw_powerEnded (s : State) (i : Sw) (r : Switch) :
    (s.setSw i r).powerEnded = s.powerEnded := rfl

@[simp] theorem setSw_picks (s : State) (i : Sw) (r : Switch) :
    (s.setSw i r).picks = s.picks := rfl

@[simp] theorem setSw_lines (s : State) (i : Sw) (r : Switch) :
    (s.setSw i r).lines = s.lines := rfl

@[simp] theorem setSw_cfg (s : State) (i : Sw) (r : Switch) :
    (s.setSw i r).cfg = s.cfg := rfl

@[simp] theorem setSw_sl (s : State) (i : Sw) (r : Switch) :
    (s.setSw i r).sl = s.sl := rfl

@[simp] theorem setSw_cs (s : State) (i : Sw) (r : Switch) :
    (s.setSw i r).cs = s.cs := rfl

@[simp] theorem setSw_sc (s : State) (i : Sw) (r : Switch) :
    (s.setSw i r).sc = s.sc := rfl

@[simp] theorem setSw_db (s : State) (i : Sw) (r : Switch) :
    (s.setSw i r).db = s.db := rfl

@[simp] theorem setSw_fl (s : State) (i : Sw) (r : Switch) :
    (s.setSw i r).fl = s.fl := rfl

@[simp] theorem setSw_sw (s : State) (i : Sw) (r : Switch) :
    (s.setSw i r).sw = { s.sw with sw := s.sw.sw.set i r } := rfl

@[simp] theorem setSw_lp (s : State) (i : Sw) (r : Switch) :
    (s.setSw i r).lp = s.lp := rfl

@[simp] theorem setSw_lc (s : State) (i : Sw) (r : Switch) :
    (s.setSw i r).lc = s.lc := rfl

@[simp] theorem setSw_er (s : State) (i : Sw) (r : Switch) :
    (s.setSw i r).er = s.er := rfl

@[simp] theorem setSw_pc (s : State) (i : Sw) (r : Switch) :
    (s.setSw i r).pc = s.pc := rfl

@[simp] theorem setSw_pending (s : State) (i : Sw) (r : Switch) :
    (s.setSw i r).pending = s.pending := rfl

/-! ### State.removeEntry -/

@[simp] theorem removeEntry_tick (s : State) (n : Out) :
    (s.removeEntry n).tick = s.tick := rfl

@[simp] theorem removeEntry_unit (s : State) (n : Out) :
    (s.removeEntry n).unit = s.unit := rfl

@[simp] theorem removeEntry_bitDue (s : State) (n : Out) :
    (s.removeEntry n).bitDue = s.bitDue := rfl

@[simp] theorem removeEntry_falling (s : State) (n : Out) :
    (s.removeEntry n).falling = s.falling := rfl
@[simp] theorem removeEntry_powerEnded (s : State) (n : Out) :
    (s.removeEntry n).powerEnded = s.powerEnded := rfl

@[simp] theorem removeEntry_picks (s : State) (n : Out) :
    (s.removeEntry n).picks = s.picks := rfl

@[simp] theorem removeEntry_lines (s : State) (n : Out) :
    (s.removeEntry n).lines = s.lines := rfl

@[simp] theorem removeEntry_cfg (s : State) (n : Out) :
    (s.removeEntry n).cfg = s.cfg := rfl

@[simp] theorem removeEntry_sl (s : State) (n : Out) :
    (s.removeEntry n).sl = s.sl := rfl

@[simp] theorem removeEntry_cs (s : State) (n : Out) :
    (s.removeEntry n).cs = { s.cs with queue := s.cs.queue.filter (·.output ≠ n) } := rfl

@[simp] theorem removeEntry_sc (s : State) (n : Out) :
    (s.removeEntry n).sc = s.sc := rfl

@[simp] theorem removeEntry_db (s : State) (n : Out) :
    (s.removeEntry n).db = s.db := rfl

@[simp] theorem removeEntry_fl (s : State) (n : Out) :
    (s.removeEntry n).fl = s.fl := rfl

@[simp] theorem removeEntry_sw (s : State) (n : Out) :
    (s.removeEntry n).sw = s.sw := rfl

@[simp] theorem removeEntry_lp (s : State) (n : Out) :
    (s.removeEntry n).lp = s.lp := rfl

@[simp] theorem removeEntry_lc (s : State) (n : Out) :
    (s.removeEntry n).lc = s.lc := rfl

@[simp] theorem removeEntry_er (s : State) (n : Out) :
    (s.removeEntry n).er = s.er := rfl

@[simp] theorem removeEntry_pc (s : State) (n : Out) :
    (s.removeEntry n).pc = s.pc := rfl

@[simp] theorem removeEntry_pending (s : State) (n : Out) :
    (s.removeEntry n).pending = s.pending := rfl

/-! ### State.updEntry -/

@[simp] theorem updEntry_tick (s : State) (n : Out) (g : Entry → Entry) :
    (s.updEntry n g).tick = s.tick := rfl

@[simp] theorem updEntry_unit (s : State) (n : Out) (g : Entry → Entry) :
    (s.updEntry n g).unit = s.unit := rfl

@[simp] theorem updEntry_bitDue (s : State) (n : Out) (g : Entry → Entry) :
    (s.updEntry n g).bitDue = s.bitDue := rfl

@[simp] theorem updEntry_falling (s : State) (n : Out) (g : Entry → Entry) :
    (s.updEntry n g).falling = s.falling := rfl
@[simp] theorem updEntry_powerEnded (s : State) (n : Out) (g : Entry → Entry) :
    (s.updEntry n g).powerEnded = s.powerEnded := rfl

@[simp] theorem updEntry_picks (s : State) (n : Out) (g : Entry → Entry) :
    (s.updEntry n g).picks = s.picks := rfl

@[simp] theorem updEntry_lines (s : State) (n : Out) (g : Entry → Entry) :
    (s.updEntry n g).lines = s.lines := rfl

@[simp] theorem updEntry_cfg (s : State) (n : Out) (g : Entry → Entry) :
    (s.updEntry n g).cfg = s.cfg := rfl

@[simp] theorem updEntry_sl (s : State) (n : Out) (g : Entry → Entry) :
    (s.updEntry n g).sl = s.sl := rfl

@[simp] theorem updEntry_cs (s : State) (n : Out) (g : Entry → Entry) :
    (s.updEntry n g).cs = { s.cs with queue := s.cs.queue.map fun e => if e.output = n then g e else e } := rfl

@[simp] theorem updEntry_sc (s : State) (n : Out) (g : Entry → Entry) :
    (s.updEntry n g).sc = s.sc := rfl

@[simp] theorem updEntry_db (s : State) (n : Out) (g : Entry → Entry) :
    (s.updEntry n g).db = s.db := rfl

@[simp] theorem updEntry_fl (s : State) (n : Out) (g : Entry → Entry) :
    (s.updEntry n g).fl = s.fl := rfl

@[simp] theorem updEntry_sw (s : State) (n : Out) (g : Entry → Entry) :
    (s.updEntry n g).sw = s.sw := rfl

@[simp] theorem updEntry_lp (s : State) (n : Out) (g : Entry → Entry) :
    (s.updEntry n g).lp = s.lp := rfl

@[simp] theorem updEntry_lc (s : State) (n : Out) (g : Entry → Entry) :
    (s.updEntry n g).lc = s.lc := rfl

@[simp] theorem updEntry_er (s : State) (n : Out) (g : Entry → Entry) :
    (s.updEntry n g).er = s.er := rfl

@[simp] theorem updEntry_pc (s : State) (n : Out) (g : Entry → Entry) :
    (s.updEntry n g).pc = s.pc := rfl

@[simp] theorem updEntry_pending (s : State) (n : Out) (g : Entry → Entry) :
    (s.updEntry n g).pending = s.pending := rfl

/-! ### State.busyDropped -/

@[simp] theorem busyDropped_tick (s : State)  :
    (s.busyDropped).tick = s.tick := rfl

@[simp] theorem busyDropped_unit (s : State)  :
    (s.busyDropped).unit = s.unit := rfl

@[simp] theorem busyDropped_bitDue (s : State)  :
    (s.busyDropped).bitDue = s.bitDue := rfl

@[simp] theorem busyDropped_falling (s : State)  :
    (s.busyDropped).falling = s.falling := rfl
@[simp] theorem busyDropped_powerEnded (s : State)  :
    (s.busyDropped).powerEnded = s.powerEnded := rfl

@[simp] theorem busyDropped_picks (s : State)  :
    (s.busyDropped).picks = s.picks := rfl

@[simp] theorem busyDropped_lines (s : State)  :
    (s.busyDropped).lines = s.lines := rfl

@[simp] theorem busyDropped_cfg (s : State)  :
    (s.busyDropped).cfg = s.cfg := rfl

@[simp] theorem busyDropped_sl (s : State)  :
    (s.busyDropped).sl = s.sl := rfl

@[simp] theorem busyDropped_cs (s : State)  :
    (s.busyDropped).cs = { s.cs with busyDrop := bump s.cs.busyDrop } := rfl

@[simp] theorem busyDropped_sc (s : State)  :
    (s.busyDropped).sc = s.sc := rfl

@[simp] theorem busyDropped_db (s : State)  :
    (s.busyDropped).db = s.db := rfl

@[simp] theorem busyDropped_fl (s : State)  :
    (s.busyDropped).fl = s.fl := rfl

@[simp] theorem busyDropped_sw (s : State)  :
    (s.busyDropped).sw = s.sw := rfl

@[simp] theorem busyDropped_lp (s : State)  :
    (s.busyDropped).lp = s.lp := rfl

@[simp] theorem busyDropped_lc (s : State)  :
    (s.busyDropped).lc = s.lc := rfl

@[simp] theorem busyDropped_er (s : State)  :
    (s.busyDropped).er = s.er := rfl

@[simp] theorem busyDropped_pc (s : State)  :
    (s.busyDropped).pc = s.pc := rfl

@[simp] theorem busyDropped_pending (s : State)  :
    (s.busyDropped).pending = s.pending := rfl

/-! ### State.take -/

@[simp] theorem take_tick (s : State) (x : Falling) :
    (s.take x).tick = s.tick := rfl

@[simp] theorem take_unit (s : State) (x : Falling) :
    (s.take x).unit = s.unit := rfl

@[simp] theorem take_bitDue (s : State) (x : Falling) :
    (s.take x).bitDue = s.bitDue := rfl

@[simp] theorem take_falling (s : State) (x : Falling) :
    (s.take x).falling = s.falling.erase x := rfl
@[simp] theorem take_powerEnded (s : State) (x : Falling) :
    (s.take x).powerEnded = s.powerEnded := rfl

@[simp] theorem take_picks (s : State) (x : Falling) :
    (s.take x).picks = s.picks := rfl

@[simp] theorem take_lines (s : State) (x : Falling) :
    (s.take x).lines = s.lines := rfl

@[simp] theorem take_cfg (s : State) (x : Falling) :
    (s.take x).cfg = s.cfg := rfl

@[simp] theorem take_sl (s : State) (x : Falling) :
    (s.take x).sl = s.sl := rfl

@[simp] theorem take_cs (s : State) (x : Falling) :
    (s.take x).cs = s.cs := rfl

@[simp] theorem take_sc (s : State) (x : Falling) :
    (s.take x).sc = s.sc := rfl

@[simp] theorem take_db (s : State) (x : Falling) :
    (s.take x).db = s.db := rfl

@[simp] theorem take_fl (s : State) (x : Falling) :
    (s.take x).fl = s.fl := rfl

@[simp] theorem take_sw (s : State) (x : Falling) :
    (s.take x).sw = s.sw := rfl

@[simp] theorem take_lp (s : State) (x : Falling) :
    (s.take x).lp = s.lp := rfl

@[simp] theorem take_lc (s : State) (x : Falling) :
    (s.take x).lc = s.lc := rfl

@[simp] theorem take_er (s : State) (x : Falling) :
    (s.take x).er = s.er := rfl

@[simp] theorem take_pc (s : State) (x : Falling) :
    (s.take x).pc = s.pc := rfl

@[simp] theorem take_pending (s : State) (x : Falling) :
    (s.take x).pending = s.pending := rfl

/-! ### State.countUnmatched -/

@[simp] theorem countUnmatched_tick (s : State)  :
    (s.countUnmatched).tick = s.tick := rfl

@[simp] theorem countUnmatched_unit (s : State)  :
    (s.countUnmatched).unit = s.unit := rfl

@[simp] theorem countUnmatched_bitDue (s : State)  :
    (s.countUnmatched).bitDue = s.bitDue := rfl

@[simp] theorem countUnmatched_falling (s : State)  :
    (s.countUnmatched).falling = s.falling := rfl
@[simp] theorem countUnmatched_powerEnded (s : State)  :
    (s.countUnmatched).powerEnded = s.powerEnded := rfl

@[simp] theorem countUnmatched_picks (s : State)  :
    (s.countUnmatched).picks = s.picks := rfl

@[simp] theorem countUnmatched_lines (s : State)  :
    (s.countUnmatched).lines = s.lines := rfl

@[simp] theorem countUnmatched_cfg (s : State)  :
    (s.countUnmatched).cfg = s.cfg := rfl

@[simp] theorem countUnmatched_sl (s : State)  :
    (s.countUnmatched).sl = s.sl := rfl

@[simp] theorem countUnmatched_cs (s : State)  :
    (s.countUnmatched).cs = s.cs := rfl

@[simp] theorem countUnmatched_sc (s : State)  :
    (s.countUnmatched).sc = s.sc := rfl

@[simp] theorem countUnmatched_db (s : State)  :
    (s.countUnmatched).db = s.db := rfl

@[simp] theorem countUnmatched_fl (s : State)  :
    (s.countUnmatched).fl = s.fl := rfl

@[simp] theorem countUnmatched_sw (s : State)  :
    (s.countUnmatched).sw = s.sw := rfl

@[simp] theorem countUnmatched_lp (s : State)  :
    (s.countUnmatched).lp = s.lp := rfl

@[simp] theorem countUnmatched_lc (s : State)  :
    (s.countUnmatched).lc = s.lc := rfl

@[simp] theorem countUnmatched_er (s : State)  :
    (s.countUnmatched).er = { s.er with unmatched := bump s.er.unmatched } := rfl

@[simp] theorem countUnmatched_pc (s : State)  :
    (s.countUnmatched).pc = s.pc := rfl

@[simp] theorem countUnmatched_pending (s : State)  :
    (s.countUnmatched).pending = s.pending := rfl

/-! ### State.countBad -/

@[simp] theorem countBad_tick (s : State)  :
    (s.countBad).tick = s.tick := rfl

@[simp] theorem countBad_unit (s : State)  :
    (s.countBad).unit = s.unit := rfl

@[simp] theorem countBad_bitDue (s : State)  :
    (s.countBad).bitDue = s.bitDue := rfl

@[simp] theorem countBad_falling (s : State)  :
    (s.countBad).falling = s.falling := rfl
@[simp] theorem countBad_powerEnded (s : State)  :
    (s.countBad).powerEnded = s.powerEnded := rfl

@[simp] theorem countBad_picks (s : State)  :
    (s.countBad).picks = s.picks := rfl

@[simp] theorem countBad_lines (s : State)  :
    (s.countBad).lines = s.lines := rfl

@[simp] theorem countBad_cfg (s : State)  :
    (s.countBad).cfg = s.cfg := rfl

@[simp] theorem countBad_sl (s : State)  :
    (s.countBad).sl = s.sl := rfl

@[simp] theorem countBad_cs (s : State)  :
    (s.countBad).cs = s.cs := rfl

@[simp] theorem countBad_sc (s : State)  :
    (s.countBad).sc = s.sc := rfl

@[simp] theorem countBad_db (s : State)  :
    (s.countBad).db = s.db := rfl

@[simp] theorem countBad_fl (s : State)  :
    (s.countBad).fl = s.fl := rfl

@[simp] theorem countBad_sw (s : State)  :
    (s.countBad).sw = s.sw := rfl

@[simp] theorem countBad_lp (s : State)  :
    (s.countBad).lp = s.lp := rfl

@[simp] theorem countBad_lc (s : State)  :
    (s.countBad).lc = s.lc := rfl

@[simp] theorem countBad_er (s : State)  :
    (s.countBad).er = { s.er with badCommand := bump s.er.badCommand } := rfl

@[simp] theorem countBad_pc (s : State)  :
    (s.countBad).pc = s.pc := rfl

@[simp] theorem countBad_pending (s : State)  :
    (s.countBad).pending = s.pending := rfl

/-! ### State.updCh -/

@[simp] theorem updCh_tick (s : State) (n : Out) (g : Channel → Channel) :
    (s.updCh n g).tick = s.tick := rfl

@[simp] theorem updCh_unit (s : State) (n : Out) (g : Channel → Channel) :
    (s.updCh n g).unit = s.unit := rfl

@[simp] theorem updCh_bitDue (s : State) (n : Out) (g : Channel → Channel) :
    (s.updCh n g).bitDue = s.bitDue := rfl

@[simp] theorem updCh_falling (s : State) (n : Out) (g : Channel → Channel) :
    (s.updCh n g).falling = s.falling := rfl
@[simp] theorem updCh_powerEnded (s : State) (n : Out) (g : Channel → Channel) :
    (s.updCh n g).powerEnded = s.powerEnded := rfl

@[simp] theorem updCh_picks (s : State) (n : Out) (g : Channel → Channel) :
    (s.updCh n g).picks = s.picks := rfl

@[simp] theorem updCh_lines (s : State) (n : Out) (g : Channel → Channel) :
    (s.updCh n g).lines = s.lines := rfl

@[simp] theorem updCh_cfg (s : State) (n : Out) (g : Channel → Channel) :
    (s.updCh n g).cfg = s.cfg := rfl

@[simp] theorem updCh_sl (s : State) (n : Out) (g : Channel → Channel) :
    (s.updCh n g).sl = s.sl := rfl

@[simp] theorem updCh_cs (s : State) (n : Out) (g : Channel → Channel) :
    (s.updCh n g).cs = { s.cs with chan := s.cs.chan.set n (g (s.ch n)) } := rfl

@[simp] theorem updCh_sc (s : State) (n : Out) (g : Channel → Channel) :
    (s.updCh n g).sc = s.sc := rfl

@[simp] theorem updCh_db (s : State) (n : Out) (g : Channel → Channel) :
    (s.updCh n g).db = s.db := rfl

@[simp] theorem updCh_fl (s : State) (n : Out) (g : Channel → Channel) :
    (s.updCh n g).fl = s.fl := rfl

@[simp] theorem updCh_sw (s : State) (n : Out) (g : Channel → Channel) :
    (s.updCh n g).sw = s.sw := rfl

@[simp] theorem updCh_lp (s : State) (n : Out) (g : Channel → Channel) :
    (s.updCh n g).lp = s.lp := rfl

@[simp] theorem updCh_lc (s : State) (n : Out) (g : Channel → Channel) :
    (s.updCh n g).lc = s.lc := rfl

@[simp] theorem updCh_er (s : State) (n : Out) (g : Channel → Channel) :
    (s.updCh n g).er = s.er := rfl

@[simp] theorem updCh_pc (s : State) (n : Out) (g : Channel → Channel) :
    (s.updCh n g).pc = s.pc := rfl

@[simp] theorem updCh_pending (s : State) (n : Out) (g : Channel → Channel) :
    (s.updCh n g).pending = s.pending := rfl

/-! ### State.hand -/

@[simp] theorem hand_tick (s : State) (f : Frame) :
    (s.hand f).tick = s.tick := rfl

@[simp] theorem hand_unit (s : State) (f : Frame) :
    (s.hand f).unit = s.unit := rfl

@[simp] theorem hand_bitDue (s : State) (f : Frame) :
    (s.hand f).bitDue = s.bitDue := rfl

@[simp] theorem hand_falling (s : State) (f : Frame) :
    (s.hand f).falling = s.falling := rfl
@[simp] theorem hand_powerEnded (s : State) (f : Frame) :
    (s.hand f).powerEnded = s.powerEnded := rfl

@[simp] theorem hand_picks (s : State) (f : Frame) :
    (s.hand f).picks = s.picks := rfl

@[simp] theorem hand_lines (s : State) (f : Frame) :
    (s.hand f).lines = s.lines := rfl

@[simp] theorem hand_cfg (s : State) (f : Frame) :
    (s.hand f).cfg = s.cfg := rfl

@[simp] theorem hand_sl (s : State) (f : Frame) :
    (s.hand f).sl = s.sl := rfl

@[simp] theorem hand_cs (s : State) (f : Frame) :
    (s.hand f).cs = s.cs := rfl

@[simp] theorem hand_sc (s : State) (f : Frame) :
    (s.hand f).sc = s.sc := rfl

@[simp] theorem hand_db (s : State) (f : Frame) :
    (s.hand f).db = s.db := rfl

@[simp] theorem hand_fl (s : State) (f : Frame) :
    (s.hand f).fl = s.fl := rfl

@[simp] theorem hand_sw (s : State) (f : Frame) :
    (s.hand f).sw = s.sw := rfl

@[simp] theorem hand_lp (s : State) (f : Frame) :
    (s.hand f).lp = s.lp := rfl

@[simp] theorem hand_lc (s : State) (f : Frame) :
    (s.hand f).lc = s.lc.hand f := rfl

@[simp] theorem hand_er (s : State) (f : Frame) :
    (s.hand f).er = s.er := rfl

@[simp] theorem hand_pc (s : State) (f : Frame) :
    (s.hand f).pc = s.pc := rfl

@[simp] theorem hand_pending (s : State) (f : Frame) :
    (s.hand f).pending = s.pending := rfl

/-! ### State.join -/

@[simp] theorem join_tick (s : State) (e : Entry) :
    (s.join e).tick = s.tick := rfl

@[simp] theorem join_unit (s : State) (e : Entry) :
    (s.join e).unit = s.unit := rfl

@[simp] theorem join_bitDue (s : State) (e : Entry) :
    (s.join e).bitDue = s.bitDue := rfl

@[simp] theorem join_falling (s : State) (e : Entry) :
    (s.join e).falling = s.falling := rfl
@[simp] theorem join_powerEnded (s : State) (e : Entry) :
    (s.join e).powerEnded = s.powerEnded := rfl

@[simp] theorem join_picks (s : State) (e : Entry) :
    (s.join e).picks = s.picks := rfl

@[simp] theorem join_lines (s : State) (e : Entry) :
    (s.join e).lines = s.lines := rfl

@[simp] theorem join_cfg (s : State) (e : Entry) :
    (s.join e).cfg = s.cfg := rfl

@[simp] theorem join_sl (s : State) (e : Entry) :
    (s.join e).sl = s.sl := rfl

@[simp] theorem join_cs (s : State) (e : Entry) :
    (s.join e).cs = { s.cs with queue := insertEntry e s.cs.queue } := rfl

@[simp] theorem join_sc (s : State) (e : Entry) :
    (s.join e).sc = s.sc := rfl

@[simp] theorem join_db (s : State) (e : Entry) :
    (s.join e).db = s.db := rfl

@[simp] theorem join_fl (s : State) (e : Entry) :
    (s.join e).fl = s.fl := rfl

@[simp] theorem join_sw (s : State) (e : Entry) :
    (s.join e).sw = s.sw := rfl

@[simp] theorem join_lp (s : State) (e : Entry) :
    (s.join e).lp = s.lp := rfl

@[simp] theorem join_lc (s : State) (e : Entry) :
    (s.join e).lc = s.lc := rfl

@[simp] theorem join_er (s : State) (e : Entry) :
    (s.join e).er = s.er := rfl

@[simp] theorem join_pc (s : State) (e : Entry) :
    (s.join e).pc = s.pc := rfl

@[simp] theorem join_pending (s : State) (e : Entry) :
    (s.join e).pending = s.pending := rfl

/-! ### State.addDraw -/

@[simp] theorem addDraw_tick (s : State) (e : DrawEntry) :
    (s.addDraw e).tick = s.tick := rfl

@[simp] theorem addDraw_unit (s : State) (e : DrawEntry) :
    (s.addDraw e).unit = s.unit := rfl

@[simp] theorem addDraw_bitDue (s : State) (e : DrawEntry) :
    (s.addDraw e).bitDue = s.bitDue := rfl

@[simp] theorem addDraw_falling (s : State) (e : DrawEntry) :
    (s.addDraw e).falling = s.falling := rfl
@[simp] theorem addDraw_powerEnded (s : State) (e : DrawEntry) :
    (s.addDraw e).powerEnded = s.powerEnded := rfl

@[simp] theorem addDraw_picks (s : State) (e : DrawEntry) :
    (s.addDraw e).picks = s.picks := rfl

@[simp] theorem addDraw_lines (s : State) (e : DrawEntry) :
    (s.addDraw e).lines = s.lines := rfl

@[simp] theorem addDraw_cfg (s : State) (e : DrawEntry) :
    (s.addDraw e).cfg = s.cfg := rfl

@[simp] theorem addDraw_sl (s : State) (e : DrawEntry) :
    (s.addDraw e).sl = s.sl := rfl

@[simp] theorem addDraw_cs (s : State) (e : DrawEntry) :
    (s.addDraw e).cs = s.cs := rfl

@[simp] theorem addDraw_sc (s : State) (e : DrawEntry) :
    (s.addDraw e).sc = s.sc := rfl

@[simp] theorem addDraw_db (s : State) (e : DrawEntry) :
    (s.addDraw e).db = { s.db with table := addEntry s.tick e s.db.table } := rfl

@[simp] theorem addDraw_fl (s : State) (e : DrawEntry) :
    (s.addDraw e).fl = s.fl := rfl

@[simp] theorem addDraw_sw (s : State) (e : DrawEntry) :
    (s.addDraw e).sw = s.sw := rfl

@[simp] theorem addDraw_lp (s : State) (e : DrawEntry) :
    (s.addDraw e).lp = s.lp := rfl

@[simp] theorem addDraw_lc (s : State) (e : DrawEntry) :
    (s.addDraw e).lc = s.lc := rfl

@[simp] theorem addDraw_er (s : State) (e : DrawEntry) :
    (s.addDraw e).er = s.er := rfl

@[simp] theorem addDraw_pc (s : State) (e : DrawEntry) :
    (s.addDraw e).pc = s.pc := rfl

@[simp] theorem addDraw_pending (s : State) (e : DrawEntry) :
    (s.addDraw e).pending = s.pending := rfl

/-! ### State.noClaim -/

@[simp] theorem noClaim_tick (s : State)  :
    (s.noClaim).tick = s.tick := rfl

@[simp] theorem noClaim_unit (s : State)  :
    (s.noClaim).unit = s.unit := rfl

@[simp] theorem noClaim_bitDue (s : State)  :
    (s.noClaim).bitDue = s.bitDue := rfl

@[simp] theorem noClaim_falling (s : State)  :
    (s.noClaim).falling = s.falling := rfl
@[simp] theorem noClaim_powerEnded (s : State)  :
    (s.noClaim).powerEnded = s.powerEnded := rfl

@[simp] theorem noClaim_picks (s : State)  :
    (s.noClaim).picks = s.picks := rfl

@[simp] theorem noClaim_lines (s : State)  :
    (s.noClaim).lines = s.lines := rfl

@[simp] theorem noClaim_cfg (s : State)  :
    (s.noClaim).cfg = s.cfg := rfl

@[simp] theorem noClaim_sl (s : State)  :
    (s.noClaim).sl = s.sl := rfl

@[simp] theorem noClaim_cs (s : State)  :
    (s.noClaim).cs = s.cs := rfl

@[simp] theorem noClaim_sc (s : State)  :
    (s.noClaim).sc = s.sc := rfl

@[simp] theorem noClaim_db (s : State)  :
    (s.noClaim).db = { s.db with claim := none } := rfl

@[simp] theorem noClaim_fl (s : State)  :
    (s.noClaim).fl = s.fl := rfl

@[simp] theorem noClaim_sw (s : State)  :
    (s.noClaim).sw = s.sw := rfl

@[simp] theorem noClaim_lp (s : State)  :
    (s.noClaim).lp = s.lp := rfl

@[simp] theorem noClaim_lc (s : State)  :
    (s.noClaim).lc = s.lc := rfl

@[simp] theorem noClaim_er (s : State)  :
    (s.noClaim).er = s.er := rfl

@[simp] theorem noClaim_pc (s : State)  :
    (s.noClaim).pc = s.pc := rfl

@[simp] theorem noClaim_pending (s : State)  :
    (s.noClaim).pending = s.pending := rfl

/-! ### State.denied -/

@[simp] theorem denied_tick (s : State)  :
    (s.denied).tick = s.tick := rfl

@[simp] theorem denied_unit (s : State)  :
    (s.denied).unit = s.unit := rfl

@[simp] theorem denied_bitDue (s : State)  :
    (s.denied).bitDue = s.bitDue := rfl

@[simp] theorem denied_falling (s : State)  :
    (s.denied).falling = s.falling := rfl
@[simp] theorem denied_powerEnded (s : State)  :
    (s.denied).powerEnded = s.powerEnded := rfl

@[simp] theorem denied_picks (s : State)  :
    (s.denied).picks = s.picks := rfl

@[simp] theorem denied_lines (s : State)  :
    (s.denied).lines = s.lines := rfl

@[simp] theorem denied_cfg (s : State)  :
    (s.denied).cfg = s.cfg := rfl

@[simp] theorem denied_sl (s : State)  :
    (s.denied).sl = s.sl := rfl

@[simp] theorem denied_cs (s : State)  :
    (s.denied).cs = s.cs := rfl

@[simp] theorem denied_sc (s : State)  :
    (s.denied).sc = s.sc := rfl

@[simp] theorem denied_db (s : State)  :
    (s.denied).db = { s.db with deny := bump s.db.deny } := rfl

@[simp] theorem denied_fl (s : State)  :
    (s.denied).fl = s.fl := rfl

@[simp] theorem denied_sw (s : State)  :
    (s.denied).sw = s.sw := rfl

@[simp] theorem denied_lp (s : State)  :
    (s.denied).lp = s.lp := rfl

@[simp] theorem denied_lc (s : State)  :
    (s.denied).lc = s.lc := rfl

@[simp] theorem denied_er (s : State)  :
    (s.denied).er = s.er := rfl

@[simp] theorem denied_pc (s : State)  :
    (s.denied).pc = s.pc := rfl

@[simp] theorem denied_pending (s : State)  :
    (s.denied).pending = s.pending := rfl

/-! ### Channels -/

@[simp] theorem setCh_ch_self (s : State) (n : Out) (c : Channel) : (s.setCh n c).ch n = c := by
  simp [State.ch]

theorem setCh_ch_ne (s : State) {n m : Out} (c : Channel) (h : m ≠ n) :
    (s.setCh n c).ch m = s.ch m := by
  simp [State.ch, Bank.get_set_ne _ _ h]

theorem setCh_ch (s : State) (n m : Out) (c : Channel) :
    (s.setCh n c).ch m = if m = n then c else s.ch m := by
  simp [State.ch, Bank.get_set]

@[simp] theorem updCh_ch_self (s : State) (n : Out) (g : Channel → Channel) :
    (s.updCh n g).ch n = g (s.ch n) := by
  simp [State.ch]

theorem updCh_ch_ne (s : State) {n m : Out} (g : Channel → Channel) (h : m ≠ n) :
    (s.updCh n g).ch m = s.ch m := by
  simp [State.ch, Bank.get_set_ne _ _ h]

theorem updCh_ch (s : State) (n m : Out) (g : Channel → Channel) :
    (s.updCh n g).ch m = if m = n then g (s.ch n) else s.ch m := by
  simp [State.ch, Bank.get_set]

@[simp] theorem updCh_prof (s : State) (n m : Out) (g : Channel → Channel) :
    (s.updCh n g).prof m = s.prof m := rfl

@[simp] theorem hand_ch (s : State) (f : Frame) (m : Out) : (s.hand f).ch m = s.ch m := rfl

@[simp] theorem hand_prof (s : State) (f : Frame) (m : Out) : (s.hand f).prof m = s.prof m := rfl

@[simp] theorem join_ch (s : State) (e : Entry) (m : Out) : (s.join e).ch m = s.ch m := rfl

@[simp] theorem addDraw_ch (s : State) (e : DrawEntry) (m : Out) :
    (s.addDraw e).ch m = s.ch m := rfl

@[simp] theorem setCh_prof (s : State) (n m : Out) (c : Channel) :
    (s.setCh n c).prof m = s.prof m := rfl

@[simp] theorem setCh_own (s : State) (n : Out) (c : Channel) : (s.setCh n c).own = s.own := rfl

@[simp] theorem removeEntry_ch (s : State) (n m : Out) : (s.removeEntry n).ch m = s.ch m := rfl

@[simp] theorem updEntry_ch (s : State) (n m : Out) (g : Entry → Entry) :
    (s.updEntry n g).ch m = s.ch m := rfl

@[simp] theorem busyDropped_ch (s : State) (m : Out) : s.busyDropped.ch m = s.ch m := rfl

/-! ### The queue of commands: setting it leaves what the meanings read -/

@[simp] theorem pending_ch (s : State) (p : List Instr) (m : Out) :
    State.ch { s with pending := p } m = s.ch m := rfl

@[simp] theorem pending_prof (s : State) (p : List Instr) (m : Out) :
    State.prof { s with pending := p } m = s.prof m := rfl

end Machine

end Sys2Proof
end

