-- ==== Sys2Proof/Laws/Edges.lean ====
section
/-!
SUPPORT. What an edge does: which rules it finds, what the flippers leave, and where it is cut.
-/
namespace Sys2Proof.Machine

/-- The rules of an edge are found from the settings and the station state alone. -/
theorem edgeRules_congr {s t : State} (hc : t.cfg = s.cfg) (hs : t.sl = s.sl) (sw : Sw) (close : Bool) :
    t.edgeRules sw close = s.edgeRules sw close := by
  unfold State.edgeRules
  rw [hc, hs]

/-- Outside RUN an edge matches no rule (R112). -/
theorem edgeRules_of_not_run {s : State} (h : s.sl.station ≠ .run) (sw : Sw) (close : Bool) :
    s.edgeRules sw close = [] := if_neg h

/-- A flipper that answers a level leaves the settings and the start loader as they are. -/
theorem flipperLevel_keeps (s : State) (sw : Sw) (closed : Bool) (f : Flip) :
    (flipperLevel s sw closed f).cfg = s.cfg ∧ (flipperLevel s sw closed f).sl = s.sl := by
  unfold flipperLevel buttonClose press buttonOpen eosClose eosOpen flipHold
  dsimp only
  repeat' split
  all_goals exact ⟨rfl, rfl⟩

/-- The same of all four flippers. -/
theorem flippersLevel_keeps (s : State) (sw : Sw) (closed : Bool) :
    (flippersLevel s sw closed).cfg = s.cfg ∧ (flippersLevel s sw closed).sl = s.sl := by
  have all (l : List Flip) : ∀ t : State, t.cfg = s.cfg ∧ t.sl = s.sl →
      (l.foldl (fun t f => flipperLevel t sw closed f) t).cfg = s.cfg ∧
        (l.foldl (fun t f => flipperLevel t sw closed f) t).sl = s.sl := by
    induction l with
    | nil => exact fun _ h => h
    | cons f l ih =>
      intro t h
      have k := flipperLevel_keeps t sw closed f
      exact ih _ ⟨k.1.trans h.1, k.2.trans h.2⟩
  exact all _ s ⟨rfl, rfl⟩

/-- An edge that matches no rule is the flippers' alone. -/
theorem edge_of_no_rule {s : State} {sw : Sw} {close : Bool} (h : s.edgeRules sw close = []) :
    edge s sw close = flippersLevel s sw close := by
  have hr : applyRules s sw close = s := by unfold applyRules; rw [h]; rfl
  unfold edge State.edgeOrderOpen
  rw [h, hr]
  simp

/-- An edge is taken whole, the rules and the flippers in one order or the other, where no reset waits
next. -/
theorem edge_of_no_reset {s : State} (h : s.resetNext = false) (sw : Sw) (close : Bool) :
    ∃ p, edge s sw close = flippersLevel (applyRules { s with picks := p } sw close) sw close ∨
      edge s sw close = applyRules (flippersLevel { s with picks := p } sw close) sw close := by
  unfold edge
  rw [h, Bool.false_and, if_neg Bool.false_ne_true]
  split
  · refine ⟨s.picks + 1, ?_⟩
    dsimp only
    split
    · exact .inl rfl
    · exact .inr rfl
  · exact ⟨s.picks, .inl rfl⟩

/-- A list of rules applied part by part. -/
theorem edgeParts_rules (l : List Rule) (sw : Sw) (close : Bool) (s : State) :
    (l.map some).foldl (fun s part => edgePart s part sw close) s =
      l.foldl (fun s r => applyRule s r sw close) s := by
  rw [List.foldl_map]
  rfl

/-- A cut edge: some of its first rules, each whole, the flippers' handling before them, after all of
them, or not at all (R112, log 45). -/
theorem cutEdge_cases (s : State) (sw : Sw) (close : Bool) :
    ∃ p n, let t : State := { s with picks := p }
      let first (t : State) : State :=
        ((t.edgeRules sw close).take n).foldl (fun s r => applyRule s r sw close) t
      cutEdge s sw close = first t ∨ cutEdge s sw close = first (flippersLevel t sw close) ∨
        cutEdge s sw close = flippersLevel (applyRules t sw close) sw close := by
  unfold cutEdge
  dsimp only
  generalize Config.freeOrder (s.picks + 1) = n
  split
  · by_cases hn : n ≤ (s.edgeRules sw close).length
    · refine ⟨s.picks + 2, n, .inl ?_⟩
      rw [List.take_append_of_le_length (by simpa using hn), ← List.map_take, edgeParts_rules]
      rfl
    · refine ⟨s.picks + 2, n, .inr (.inr ?_)⟩
      rw [List.take_of_length_le (by simp; omega), List.foldl_append, edgeParts_rules]
      rfl
  · cases n with
    | zero => exact ⟨s.picks + 2, 0, .inl rfl⟩
    | succ n =>
      refine ⟨s.picks + 2, n, .inr (.inl ?_)⟩
      have k := flippersLevel_keeps { s with picks := s.picks + 2 } sw close
      rw [List.take_succ_cons, List.foldl_cons, ← List.map_take, edgeParts_rules,
        edgeRules_congr (s := s) k.1 k.2]
      rfl

end Sys2Proof.Machine
end

