-- ==== Sys2Proof/Laws/Ops.lean ====
section
/-!
SUPPORT. What the shared operations can do: the parts of the state they leave, and the bounds they
keep.
-/
namespace Sys2Proof.Machine

/-! ### Coil work -/

theorem CoilWork.refl (s : State) : CoilWork s s := rfl

theorem CoilWork.trans {s t u : State} (h : CoilWork s t) (k : CoilWork t u) : CoilWork s u := by
  unfold CoilWork at *
  rw [k, h]

theorem coilWork_updCh (s : State) (n : Out) (g : Channel → Channel) :
    CoilWork s (s.updCh n g) := rfl
theorem coilWork_removeEntry (s : State) (n : Out) : CoilWork s (s.removeEntry n) := rfl
theorem coilWork_updEntry (s : State) (n : Out) (g : Entry → Entry) :
    CoilWork s (s.updEntry n g) := rfl
theorem coilWork_join (s : State) (e : Entry) : CoilWork s (s.join e) := rfl
theorem coilWork_hand (s : State) (f : Frame) : CoilWork s (s.hand f) := rfl
theorem coilWork_busyDropped (s : State) : CoilWork s s.busyDropped := rfl
theorem coilWork_waitDropped (s : State) : CoilWork s s.waitDropped := rfl
theorem coilWork_unpark (s : State) : CoilWork s s.unpark := rfl
theorem coilWork_noClaim (s : State) : CoilWork s s.noClaim := rfl
theorem coilWork_addDraw (s : State) (e : DrawEntry) : CoilWork s (s.addDraw e) := rfl
theorem coilWork_cs (s : State) (c : Coils) : CoilWork s { s with cs := c } := rfl
theorem coilWork_db (s : State) (b : Budget) : CoilWork s { s with db := b } := rfl
theorem coilWork_lc (s : State) (l : Link) : CoilWork s { s with lc := l } := rfl

theorem coilWork_grant (s : State) (c : Claim) (at_ : Tick) : CoilWork s (grant s c at_) :=
  (coilWork_removeEntry s _).trans (coilWork_updCh _ _ _)

theorem coilWork_deny (s : State) (n : Out) : CoilWork s (deny s n) := rfl

theorem coilWork_placeClaim (s : State) (e : Entry) : CoilWork s (placeClaim s e) := rfl

theorem coilWork_decide (s : State) (c : Claim) (at_ : Tick) : CoilWork s (decide_ s c at_) := by
  unfold decide_
  split
  · split
    · exact coilWork_addDraw s _
    · exact (coilWork_addDraw s _).trans (coilWork_grant _ _ _)
  · split
    · exact .refl s
    · exact coilWork_deny s _

theorem coilWork_decideClaim (s : State) (at_ : Tick) : CoilWork s (decideClaim s at_) := by
  unfold decideClaim
  split
  · exact (coilWork_noClaim s).trans (coilWork_decide _ _ _)
  · exact .refl s

theorem coilWork_selectLoop (k : Nat) (s : State) : CoilWork s (selectLoop k s) := by
  induction k generalizing s with
  | zero => exact .refl s
  | succ k ih =>
    unfold selectLoop
    split
    · exact .refl s
    · split
      · exact .refl s
      · split
        · exact (coilWork_decide _ _ _).trans (ih _)
        · exact coilWork_placeClaim _ _

theorem coilWork_select (s : State) : CoilWork s (select s) := coilWork_selectLoop _ s

theorem coilWork_viewDecrease (s : State) : CoilWork s (viewDecrease s) :=
  (coilWork_unpark s).trans (coilWork_select _)

theorem coilWork_announce (s : State) : CoilWork s (announceStanding s) := by
  unfold announceStanding
  split
  · exact (coilWork_hand s _).trans (coilWork_db _ _)
  · exact .refl s

theorem coilWork_setOwnDraw (s : State) (d : Nat) : CoilWork s (s.setOwnDraw d) := by
  unfold State.setOwnDraw
  split <;> exact rfl

theorem coilWork_updateStanding (s : State) : CoilWork s (updateStanding s) := by
  unfold updateStanding
  split
  · exact .refl s
  · have h := (coilWork_setOwnDraw s s.holdSum).trans (coilWork_announce _)
    split
    · exact h.trans (coilWork_viewDecrease _)
    · exact h

theorem coilWork_withdrawClaim (s : State) (n : Out) : CoilWork s (withdrawClaim s n) := by
  unfold withdrawClaim
  split
  · split
    · split
      · split
        · exact coilWork_db s _
        · exact (coilWork_noClaim s).trans (coilWork_lc _ _)
      · exact coilWork_noClaim s
    · exact .refl s
  · exact .refl s

theorem coilWork_dequeue (s : State) (n : Out) : CoilWork s (dequeue s n) :=
  (coilWork_removeEntry s n).trans (coilWork_withdrawClaim _ n)

theorem coilWork_enqueue (s : State) (n : Out) (b : Bool) (o : Option Nat) :
    CoilWork s (enqueue s n b o) :=
  ((coilWork_updCh s n _).trans (coilWork_join _ _)).trans (coilWork_select _)

theorem coilWork_toCool (s : State) (n : Out) : CoilWork s (toCool s n) := coilWork_updCh s n _

theorem coilWork_toOff (s : State) (n : Out) : CoilWork s (toOff s n) := coilWork_updCh s n _

theorem coilWork_endTrain (s : State) (n : Out) : CoilWork s (endTrain s n) := by
  unfold endTrain
  split
  · exact .refl s
  · split
    · exact ((coilWork_updCh s n _).trans (coilWork_toOff _ n)).trans (coilWork_hand _ _)
    · exact (coilWork_updCh s n _).trans (coilWork_toOff _ n)

theorem coilWork_coolOver (s : State) (n : Out) : CoilWork s (coolOver s n) := by
  unfold coolOver
  split
  · exact (coilWork_updCh s n _).trans (coilWork_enqueue _ _ _ _)
  · exact (coilWork_updCh s n _).trans (coilWork_toOff _ _)

theorem coilWork_burstCoolOver (s : State) (n : Out) (tr : Train) :
    CoilWork s (burstCoolOver s n tr) := by
  unfold burstCoolOver
  split
  · exact coilWork_endTrain s n
  · exact (coilWork_updCh s n _).trans (coilWork_enqueue _ _ _ _)

theorem coilWork_coolIfZero (s : State) (n : Out) : CoilWork s (coolIfZero s n) := by
  unfold coolIfZero
  split
  · split
    · exact coilWork_coolOver s n
    · exact coilWork_burstCoolOver s n _
  · exact .refl s

theorem coilWork_coolFrom (s : State) (n : Out) : CoilWork s (coolFrom s n) :=
  (coilWork_toCool s n).trans (coilWork_coolIfZero _ n)

theorem coilWork_leaveHold (s : State) (n : Out) : CoilWork s (leaveHold s n) :=
  ((coilWork_toCool s n).trans (coilWork_updateStanding _)).trans (coilWork_coolIfZero _ n)

theorem coilWork_enterHold (s : State) (n : Out) : CoilWork s (enterHold s n) :=
  (coilWork_updCh s n _).trans (coilWork_updateStanding _)

theorem coilWork_toFault (s : State) (n : Out) (k : FaultKind) : CoilWork s (toFault s n k) :=
  (((coilWork_updCh s n _).trans (coilWork_dequeue _ n)).trans (coilWork_hand _ _)).trans
    (coilWork_updateStanding _)

theorem coilWork_fireRequest (s : State) (n : Out) (o : Option Nat) :
    CoilWork s (fireRequest s n o) := by
  unfold fireRequest
  dsimp only
  split
  · exact coilWork_enqueue _ _ _ _
  · exact coilWork_busyDropped s
  · exact .refl s
  · split
    · exact coilWork_busyDropped s
    · split
      · exact coilWork_updCh s n _
      · exact (coilWork_updCh s n _).trans (coilWork_busyDropped _)

theorem coilWork_holdAfterPower (s : State) (n : Out) : CoilWork s (holdAfterPower s n) :=
  (coilWork_updCh s n _).trans (coilWork_enterHold _ n)

theorem coilWork_holdRequest (s : State) (n : Out) : CoilWork s (holdRequest s n) := by
  unfold holdRequest
  dsimp only
  split
  · split
    · exact coilWork_holdAfterPower s n
    · exact (coilWork_updCh s n _).trans (coilWork_enqueue _ _ _ _)
  · exact coilWork_busyDropped s
  · exact .refl s
  · exact coilWork_updCh s n _
  · split
    · exact coilWork_busyDropped s
    · split
      · exact coilWork_holdAfterPower s n
      · exact coilWork_updCh s n _
  · split
    · exact coilWork_busyDropped s
    · exact coilWork_updCh s n _

theorem coilWork_releaseRequest (s : State) (n : Out) : CoilWork s (releaseRequest s n) := by
  unfold releaseRequest
  split
  · exact .refl s
  · exact coilWork_busyDropped s
  · exact .refl s
  · exact (coilWork_updCh s n _).trans (coilWork_leaveHold _ _)
  · exact coilWork_updCh s n _

theorem coilWork_trainAddition (s : State) (n : Out) (tr : Train) (r : TrainReq) :
    CoilWork s (trainAddition s n tr r) := by
  unfold trainAddition
  split
  · exact coilWork_busyDropped s
  · extract_lets t
    have h : CoilWork s t := coilWork_updCh s n _
    split
    · exact h.trans (coilWork_busyDropped t)
    · exact h

theorem coilWork_trainRequest (s : State) (n : Out) (r : TrainReq) :
    CoilWork s (trainRequest s n r) := by
  unfold trainRequest
  dsimp only
  split
  · exact (coilWork_updCh s n _).trans (coilWork_enqueue _ _ _ _)
  · exact coilWork_busyDropped s
  · exact .refl s
  · split
    · exact coilWork_trainAddition s n _ r
    · exact coilWork_busyDropped s

theorem coilWork_gracefulStop (s : State) (n : Out) (tr : Train) :
    CoilWork s (gracefulStop s n tr) := by
  unfold gracefulStop
  extract_lets t
  have h : CoilWork s t := coilWork_updCh s n _
  split
  · exact ((h.trans (coilWork_dequeue t n)).trans (coilWork_endTrain _ n)).trans
      (coilWork_select _)
  · exact h.trans (coilWork_coolFrom t n)
  · exact h

theorem coilWork_cancelTrain (s : State) (n : Out) : CoilWork s (cancelTrain s n) := by
  unfold cancelTrain
  extract_lets t
  have h : CoilWork s t := coilWork_updCh s n _
  split
  · exact ((h.trans (coilWork_dequeue t n)).trans (coilWork_toOff _ n)).trans (coilWork_select _)
  · exact h.trans (coilWork_coolFrom t n)
  · exact h.trans (coilWork_coolFrom t n)
  · exact h

theorem coilWork_trainStopRequest (s : State) (n : Out) (c : Bool) :
    CoilWork s (trainStopRequest s n c) := by
  unfold trainStopRequest
  dsimp only
  split
  · exact coilWork_busyDropped s
  · split
    · split
      · exact coilWork_cancelTrain s n
      · exact coilWork_gracefulStop s n _
    · exact .refl s

/-- A request taken changes coils, budget and link alone. -/
theorem coilWork_takeRequest (s : State) (n : Out) (r : Request) :
    CoilWork s (takeRequest s n r) := by
  cases r with
  | fire o => exact coilWork_fireRequest s n o
  | hold => exact coilWork_holdRequest s n
  | release => exact coilWork_releaseRequest s n
  | train r => exact coilWork_trainRequest s n r
  | trainStop c => exact coilWork_trainStopRequest s n c

theorem coilWork_waitDrop (s : State) (n : Out) : CoilWork s (waitDrop s n) :=
  ((((coilWork_dequeue s n).trans (coilWork_updCh _ n _)).trans (coilWork_toOff _ n)).trans
    (coilWork_waitDropped _)).trans (coilWork_select _)

theorem coilWork_gateOutput (s : State) (n : Out) : CoilWork s (gateOutput s n) := by
  unfold gateOutput
  extract_lets t cut
  have h : CoilWork s t := coilWork_updCh s n _
  have hc : CoilWork s cut := by
    show CoilWork s (if _ then _ else _)
    split
    · exact h.trans (coilWork_toOff t n)
    · exact h.trans (coilWork_toCool t n)
  split
  · exact hc
  · exact hc
  · exact hc
  · exact (h.trans (coilWork_dequeue t n)).trans (coilWork_toOff _ n)
  · exact h

theorem coilWork_gateOutputs (s : State) (a b : PlayState) : CoilWork s (gateOutputs s a b) := by
  have h : ∀ (l : List Out) (s : State), CoilWork s
      (l.foldl (fun s n => if newlyGated s.cfg a b n then gateOutput s n else s) s) := by
    intro l
    induction l with
    | nil => intro s; exact .refl s
    | cons n l ih =>
      intro s
      refine CoilWork.trans ?_ (ih _)
      dsimp only
      split
      · exact coilWork_gateOutput s n
      · exact .refl s
  exact (h _ s).trans (coilWork_updateStanding _)

/-! ### Selection (R12, R56) -/

/-- With a claim in flight there is no selection. -/
theorem select_of_claim {s : State} (h : s.db.claim.isSome) : select s = s := by
  unfold select selectLoop
  simp [h]

/-- With nothing eligible there is no selection. -/
theorem select_of_none {s : State} (h : (unblocked s.cs.queue).find? s.eligible = none) :
    select s = s := by
  unfold select selectLoop
  split
  · rfl
  · rw [h]

/-- A supply state of LOW holds every entry back (R10). -/
theorem eligible_of_low {s : State} (h : s.sc.supplyState = .low) (e : Entry) :
    s.eligible e = false := by
  simp [State.eligible, h]

theorem select_of_low {s : State} (h : s.sc.supplyState = .low) : select s = s := by
  apply select_of_none
  rw [List.find?_eq_none]
  intro e _
  simp [eligible_of_low h]

theorem select_of_empty {s : State} (h : s.cs.queue = []) : select s = s := by
  apply select_of_none
  simp [h, unblocked]

theorem unblocked_subset (l : List Entry) {e : Entry} (h : e ∈ unblocked l) : e ∈ l := by
  induction l with
  | nil => exact h
  | cons x rest ih =>
    unfold unblocked at h
    split at h
    · simp at h; simp [h]
    · rcases List.mem_cons.mp h with h | h
      · simp [h]
      · exact List.mem_cons_of_mem _ (ih h)

/-- In NORMAL budget mode a selection makes at most one claim (R12). -/
theorem select_normal {s : State} (h : s.isolated = false) :
    select s = s ∨ ∃ e ∈ s.cs.queue, s.db.claim = none ∧ s.eligible e = true ∧
      select s = placeClaim s e := by
  unfold select selectLoop
  split
  · exact .inl rfl
  · rename_i hc
    split
    · exact .inl rfl
    · rename_i e he
      right
      have hm := unblocked_subset _ (List.mem_of_find?_eq_some he)
      refine ⟨e, hm, by simpa using hc, List.find?_some he, ?_⟩
      simp [h]

/-- A claim made leaves every output's state. -/
theorem placeClaim_state (s : State) (e : Entry) (m : Out) :
    ((placeClaim s e).ch m).state = (s.ch m).state := by
  have h : (placeClaim s e).ch m = ((s.updEntry e.output Entry.claimed).updCh e.output
      (·.figures (s.claimOf e).t (s.claimOf e).draw)).ch m := rfl
  rw [h, updCh_ch]
  split
  · rename_i h; subst h; rfl
  · rfl

/-- In NORMAL budget mode a selection leaves every output's state. -/
theorem select_state {s : State} (h : s.isolated = false) (m : Out) :
    ((select s).ch m).state = (s.ch m).state := by
  rcases select_normal h with h | ⟨e, _, _, _, h⟩
  · rw [h]
  · rw [h, placeClaim_state]

/-! ### Bounds -/

theorem replaceEntry_length (old new : DrawEntry) (l : List DrawEntry) :
    (replaceEntry old new l).length = l.length := by
  induction l with
  | nil => rfl
  | cons e rest ih => unfold replaceEntry; split <;> simp [ih]

/-- The draw table never exceeds 24 entries (R46). -/
theorem addEntry_length (now : Tick) (new : DrawEntry) (l : List DrawEntry) (h : l.length ≤ 24) :
    (addEntry now new l).length ≤ 24 := by
  unfold addEntry
  split
  · rename_i hl; simp [Config.drawTableSize] at hl; simp; omega
  · split
    · simp
    · dsimp only; rw [replaceEntry_length]; exact h

theorem replaceFirst_length (f : Frame) (l : List Frame) : (replaceFirst f l).length = l.length := by
  induction l with
  | nil => rfl
  | cons e rest ih => unfold replaceFirst; split <;> simp [ih]

theorem replaceSlot_outq (lc : Link) (i : Fin 4) (f : Frame) :
    (lc.replaceSlot i f).outq = lc.outq := by
  unfold Link.replaceSlot
  split <;> rfl

/-- Handing a frame never carries the outgoing queue past 8 (R149). -/
theorem hand_outq (lc : Link) (f : Frame) (h : lc.outq.length ≤ 8) :
    (lc.hand f).outq.length ≤ 8 := by
  unfold Link.hand
  split
  · exact h
  · split
    · rw [replaceSlot_outq]; exact h
    · split
      · rw [replaceSlot_outq]; exact h
      · split
        · simpa [replaceFirst_length] using h
        · split
          · exact h
          · split
            · exact h
            · split
              · rename_i hl; simp [Config.outQueueSize] at hl; simp; omega
              · exact h

theorem fill_outq (lc : Link) (i : Fin 4) (h : lc.outq.length ≤ 8) :
    (lc.fill i).outq.length ≤ 8 := by
  unfold Link.fill
  split
  · rename_i f rest _ hq
    rw [hq] at h
    show rest.length ≤ 8
    simp at h
    omega
  · exact h

theorem refill_outq (lc : Link) (h : lc.outq.length ≤ 8) : lc.refill.outq.length ≤ 8 :=
  fill_outq _ _ (fill_outq _ _ h)

/-- A saturating count stays within its maximum (R2). -/
theorem satAdd_le (m a b : Nat) : satAdd m a b ≤ m := Nat.min_le_left _ _

theorem bump_le (c : Nat) : bump c ≤ 65535 := satAdd_le _ _ _

/-- Handing a frame leaves everything of the link but slots 2 and 3, the queue and the drop
counter. -/
theorem hand_frame (lc : Link) (f : Frame) :
    lc.hand f = { lc with
      slots := (lc.hand f).slots, outq := (lc.hand f).outq, txDrop := (lc.hand f).txDrop } := by
  unfold Link.hand Link.replaceSlot Link.place
  repeat' split
  all_goals rfl

end Sys2Proof.Machine
end

