-- ==== Sys2Proof/Laws/Received.lean ====
section
/-!
SUPPORT. What a frame received to completion leaves and writes, and what a command frame that is
admitted comes to.
-/
namespace Sys2Proof.Machine

/-- A received frame changes the link controller and the standing records alone. -/
theorem received_eq (s : State) (src : BitVec 6) :
    received s src = { s with
      lc := s.lc.frameOver.countReceive
      db := { s.db with standing := (received s src).db.standing } } := by
  unfold received heardFrom
  dsimp only
  split
  · split <;> rfl
  · rfl

section Fields

variable (s : State) (src : BitVec 6)

theorem received_tick : (received s src).tick = s.tick := by rw [received_eq]
theorem received_powerEnded : (received s src).powerEnded = s.powerEnded := by rw [received_eq]
theorem received_cfg : (received s src).cfg = s.cfg := by rw [received_eq]
theorem received_sl : (received s src).sl = s.sl := by rw [received_eq]
theorem received_cs : (received s src).cs = s.cs := by rw [received_eq]
theorem received_sc : (received s src).sc = s.sc := by rw [received_eq]
theorem received_fl : (received s src).fl = s.fl := by rw [received_eq]
theorem received_sw : (received s src).sw = s.sw := by rw [received_eq]
theorem received_lp : (received s src).lp = s.lp := by rw [received_eq]
theorem received_er : (received s src).er = s.er := by rw [received_eq]
theorem received_pc : (received s src).pc = s.pc := by rw [received_eq]
theorem received_lc : (received s src).lc = s.lc.frameOver.countReceive := by rw [received_eq]
theorem received_table : (received s src).db.table = s.db.table := by rw [received_eq]
theorem received_claim : (received s src).db.claim = s.db.claim := by rw [received_eq]
theorem received_pending : (received s src).pending = s.pending := by rw [received_eq]
theorem received_own : (received s src).own = s.own := by rw [received_eq]; rfl
theorem received_viewing : (received s src).viewing = s.viewing := by rw [received_eq]; rfl
theorem received_ch (n : Out) : (received s src).ch n = s.ch n := by rw [received_eq]; rfl
theorem received_prof (n : Out) : (received s src).prof n = s.prof n := by rw [received_eq]; rfl
theorem received_open (c : Nat) : (received s src).open_ c = s.open_ c := by rw [received_eq]; rfl

theorem received_coilWork : CoilWork s (received s src) := by
  unfold CoilWork; rw [received_eq]

end Fields

/-- The record of a station number. -/
theorem standingIdx_of {b : BitVec 6} {i : Fin 63} (h : b.toNat = i.val) :
    standingIdx b = some i := by
  unfold standingIdx
  have : b.toNat < 63 := by omega
  rw [dif_pos this]
  congr 1
  exact Fin.ext h

/-- A record written over the one a frame has just renewed. -/
theorem received_standing_set (s : State) {src : BitVec 6} {i : Fin 63} (h : src.toNat = i.val)
    (r : Standing) : (received s src).db.standing.set i r = s.db.standing.set i r := by
  unfold received heardFrom
  split
  · rw [standingIdx_of h]
    dsimp only
    rw [Bank.set_set]
  · rfl

/-! ### Command frames -/

theorem coilOf_isCS {cfg : Settings} {p : List Byte} {n : Out} (h : coilOf cfg p = some n) :
    (cfg.profiles.get n).mode.isCS = true := by
  unfold coilOf at h
  split at h
  · split at h
    · cases h; assumption
    · cases h
  · cases h

/-- A coil command read from a frame names a CS output (R162). -/
theorem readCommand_isCS {cfg : Settings} {k : CommandKind} {p : List Byte} {n : Out} {r : Request}
    (h : readCommand cfg k p = some (.coil n r)) : (cfg.profiles.get n).mode.isCS = true := by
  unfold readCommand at h
  split at h
  all_goals repeat' split at h
  all_goals first
    | (cases h; done)
    | (cases h; apply coilOf_isCS; assumption)
    | (simp only [Option.map_eq_some_iff] at h; obtain ⟨a, ha, he⟩ := h; cases he
       exact coilOf_isCS ha)

/-- A command frame admitted and read (R161–R163). -/
theorem commandReceived_of {s : State} {k : CommandKind} {f : Heard} {c : Command}
    (h₁ : s.canReceive = true) (h₂ : s.sl.station = .run) (h₃ : addressed s.own f.payload = true)
    (h₄ : readCommand s.cfg k f.payload = some c) :
    commandReceived s k f = runCommand (received s f.source) c := by
  unfold commandReceived
  rw [if_pos h₁]
  unfold commandTaken
  have ha : (received s f.source).admits k f.payload = true := by
    unfold State.admits
    simp [received_sl, received_own, h₂, h₃]
  rw [if_pos ha, received_cfg, h₄]

/-- A coil command whose class is enabled on a station that is not stopped is taken (R4). -/
theorem commandReceived_coil {s : State} {k : CommandKind} {f : Heard} {n : Out} {r : Request}
    (h₁ : s.canReceive = true) (h₂ : s.sl.station = .run) (h₃ : addressed s.own f.payload = true)
    (h₄ : readCommand s.cfg k f.payload = some (.coil n r))
    (h₅ : s.open_ (s.prof n).cls = true) :
    commandReceived s k f = takeRequest (received s f.source) n r := by
  rw [commandReceived_of h₁ h₂ h₃ h₄]
  show coilRequest (received s f.source) n r = _
  unfold coilRequest
  rw [received_open, received_prof, h₅, received_sl, if_pos ⟨h₂, readCommand_isCS h₄⟩]
  rfl

end Sys2Proof.Machine
end

