-- ==== Sys2Proof/Laws/Selection.lean ====
section
/-!
SUPPORT. What a selection, a decision, a view decrease and the entry to FAULT leave and write: an
output with no entry in the queue is left alone.
-/
namespace Sys2Proof.Machine

/-- No entry of output n waits. -/
def NoEntry (s : State) (n : Out) : Prop := ∀ e ∈ s.cs.queue, e.output ≠ n

theorem NoEntry.of_queue {s t : State} {n : Out} (h : t.cs.queue = s.cs.queue) (f : NoEntry s n) :
    NoEntry t n := by
  intro e he
  rw [h] at he
  exact f e he

theorem updCh_updCh (s : State) (n : Out) (f g : Channel → Channel) :
    (s.updCh n f).updCh n g = s.updCh n fun c => g (f c) := by
  unfold State.updCh State.setCh
  simp only [State.ch, Bank.get_set_self, Bank.set_set]

theorem updCh_congr {s : State} {n : Out} {f g : Channel → Channel}
    (h : f (s.ch n) = g (s.ch n)) : s.updCh n f = s.updCh n g := by
  unfold State.updCh
  rw [h]

/-! ### The queue -/

theorem mem_insertEntry (e x : Entry) (l : List Entry) :
    x ∈ insertEntry e l ↔ x = e ∨ x ∈ l := by
  induction l with
  | nil => simp [insertEntry]
  | cons y r ih =>
    unfold insertEntry
    split
    · simp
    · simp [ih, or_left_comm]

theorem length_insertEntry (e : Entry) (l : List Entry) :
    (insertEntry e l).length = l.length + 1 := by
  induction l with
  | nil => rfl
  | cons y r ih => unfold insertEntry; split <;> simp [ih]

theorem noEntry_removeEntry (s : State) (n : Out) : NoEntry (s.removeEntry n) n := by
  intro e he
  simp [State.removeEntry] at he
  exact he.2

theorem withdrawClaim_cs (s : State) (n : Out) : (withdrawClaim s n).cs = s.cs := by
  unfold withdrawClaim
  repeat' split
  all_goals rfl

theorem dequeue_cs (s : State) (n : Out) : (dequeue s n).cs = (s.removeEntry n).cs :=
  withdrawClaim_cs _ _

theorem noEntry_dequeue (s : State) (n : Out) : NoEntry (dequeue s n) n :=
  NoEntry.of_queue (by rw [dequeue_cs]) (noEntry_removeEntry s n)

theorem dequeue_ch (s : State) (n m : Out) : (dequeue s n).ch m = s.ch m := by
  unfold State.ch
  rw [dequeue_cs]
  rfl

/-! ### Selection in NORMAL budget mode -/

/-- A selection marks at most entries as claimed. -/
theorem select_queue {s : State} (h : s.isolated = false) :
    ∃ g : Entry → Entry, (∀ e, g e = e ∨ g e = e.claimed) ∧
      (select s).cs.queue = s.cs.queue.map g := by
  rcases select_normal h with h | ⟨e, _, _, _, h⟩
  · exact ⟨id, fun _ => .inl rfl, by rw [h]; simp⟩
  · refine ⟨fun x => if x.output = e.output then x.claimed else x, fun x => ?_, by rw [h]; rfl⟩
    dsimp only
    split
    · exact .inr rfl
    · exact .inl rfl

/-- A selection changes a channel's figures alone. -/
theorem select_ch {s : State} (h : s.isolated = false) (m : Out) :
    ∃ t d, (select s).ch m = (s.ch m).figures t d := by
  rcases select_normal h with h | ⟨e, _, _, _, h⟩
  · exact ⟨(s.ch m).t, (s.ch m).draw, by rw [h]; rfl⟩
  · have hh : (placeClaim s e).ch m = ((s.updEntry e.output Entry.claimed).updCh e.output
      (·.figures (s.claimOf e).t (s.claimOf e).draw)).ch m := rfl
    rw [h, hh, updCh_ch]
    split
    · rename_i hm; subst hm; exact ⟨_, _, rfl⟩
    · exact ⟨(s.ch m).t, (s.ch m).draw, rfl⟩

/-- The channels after an output joins the queue. -/
theorem enqueue_ch {s : State} (h : s.isolated = false) (n : Out) (b : Bool) (o : Option Nat)
    (m : Out) : ∃ t d, (enqueue s n b o).ch m =
      (if m = n then (s.ch n).to .queued else s.ch m).figures t d := by
  obtain ⟨t, d, e⟩ := select_ch (s := (s.updCh n (·.to .queued)).join
    ⟨n, (s.prof n).cls, s.tick, b, false, false, false, o⟩) h m
  refine ⟨t, d, ?_⟩
  unfold enqueue
  rw [e]
  show ((s.updCh n (·.to .queued)).ch m).figures t d = _
  rw [updCh_ch]

/-! ### An output without an entry, in either budget mode -/

theorem placeClaim_ch (s : State) (e : Entry) (m : Out) (h : m ≠ e.output) :
    (placeClaim s e).ch m = s.ch m := by
  show ((s.updEntry e.output Entry.claimed).updCh e.output
    (·.figures (s.claimOf e).t (s.claimOf e).draw)).ch m = _
  rw [updCh_ch, if_neg h]
  rfl

theorem decide_ch (s : State) (c : Claim) (a : Tick) (m : Out) (h : m ≠ c.output) :
    (decide_ s c a).ch m = s.ch m := by
  unfold decide_
  split
  · split
    · rfl
    · unfold grant
      rw [updCh_ch, if_neg h]
      rfl
  · split <;> rfl

theorem decide_lc (s : State) (c : Claim) (a : Tick) : (decide_ s c a).lc = s.lc := by
  unfold decide_
  repeat' split
  all_goals rfl

theorem noEntry_decide (s : State) (c : Claim) (a : Tick) (m : Out) (h : NoEntry s m) :
    NoEntry (decide_ s c a) m := by
  unfold decide_
  split
  · split
    · exact h
    · intro e he
      have : e ∈ s.cs.queue.filter (·.output ≠ c.output) := he
      exact h e (List.mem_filter.mp this).1
  · split
    · exact h
    · intro e he
      obtain ⟨x, hx, rfl⟩ :
          ∃ x ∈ s.cs.queue, (if x.output = c.output then x.parked else x) = e := by
        simpa [deny, State.updEntry, State.denied] using he
      have := h x hx
      split <;> exact this

theorem claimOf_output (s : State) (e : Entry) : (s.claimOf e).output = e.output := by
  unfold State.claimOf
  dsimp only
  split <;> rfl

theorem selectLoop_alone (k : Nat) (s : State) (m : Out) (h : NoEntry s m) :
    (selectLoop k s).ch m = s.ch m ∧ NoEntry (selectLoop k s) m := by
  induction k generalizing s with
  | zero => exact ⟨rfl, h⟩
  | succ k ih =>
    unfold selectLoop
    split
    · exact ⟨rfl, h⟩
    · split
      · exact ⟨rfl, h⟩
      · rename_i e he
        have hne : m ≠ e.output := fun x =>
          h e (unblocked_subset _ (List.mem_of_find?_eq_some he)) x.symm
        split
        · have hc : m ≠ (s.claimOf e).output := by rw [claimOf_output]; exact hne
          obtain ⟨a, b⟩ := ih (decide_ s (s.claimOf e) s.tick) (noEntry_decide _ _ _ _ h)
          exact ⟨a.trans (decide_ch _ _ _ _ hc), b⟩
        · refine ⟨placeClaim_ch _ _ _ hne, ?_⟩
          intro x hx
          obtain ⟨y, hy, rfl⟩ :
              ∃ y ∈ s.cs.queue, (if y.output = e.output then y.claimed else y) = x := by
            simpa [placeClaim, State.updEntry, State.updCh, State.setCh] using hx
          have := h y hy
          split <;> exact this

/-- A selection leaves an output that has no entry. -/
theorem select_alone (s : State) (m : Out) (h : NoEntry s m) :
    (select s).ch m = s.ch m ∧ NoEntry (select s) m := selectLoop_alone _ s m h

/-- A view decrease leaves an output that has no entry. -/
theorem viewDecrease_alone (s : State) (m : Out) (h : NoEntry s m) :
    (viewDecrease s).ch m = s.ch m ∧ NoEntry (viewDecrease s) m := by
  refine select_alone s.unpark m fun e he => ?_
  obtain ⟨x, hx, rfl⟩ : ∃ x ∈ s.cs.queue, ({ x with waits := false } : Entry) = e := by
    simpa [State.unpark] using he
  exact h x hx

/-- After a view decrease in NORMAL mode no entry waits for one (R53). -/
theorem viewDecrease_waits {s : State} (h : s.isolated = false) :
    ∀ e ∈ (viewDecrease s).cs.queue, e.waits = false := by
  obtain ⟨g, hg, e⟩ := select_queue (s := s.unpark) h
  unfold viewDecrease
  rw [e]
  intro x hx
  obtain ⟨y, hy, rfl⟩ := List.mem_map.mp hx
  obtain ⟨z, _, rfl⟩ : ∃ z ∈ s.cs.queue, ({ z with waits := false } : Entry) = y := by
    simpa [State.unpark] using hy
  rcases hg { z with waits := false } with h' | h' <;> rw [h'] <;> rfl

theorem announce_cs (s : State) : (announceStanding s).cs = s.cs := by
  unfold announceStanding
  split <;> rfl

theorem setOwnDraw_cs (s : State) (d : Nat) : (s.setOwnDraw d).cs = s.cs := by
  unfold State.setOwnDraw
  split <;> rfl

/-- Computing the own standing draw leaves an output that has no entry. -/
theorem updateStanding_alone (s : State) (m : Out) (h : NoEntry s m) :
    (updateStanding s).ch m = s.ch m ∧ NoEntry (updateStanding s) m := by
  have hc : (announceStanding (s.setOwnDraw s.holdSum)).cs = s.cs := by
    rw [announce_cs, setOwnDraw_cs]
  have hf : NoEntry (announceStanding (s.setOwnDraw s.holdSum)) m :=
    NoEntry.of_queue (by rw [hc]) h
  have hch : (announceStanding (s.setOwnDraw s.holdSum)).ch m = s.ch m := by
    unfold State.ch
    rw [hc]
  unfold updateStanding
  split
  · exact ⟨rfl, h⟩
  · split
    · obtain ⟨a, b⟩ := viewDecrease_alone _ m hf
      exact ⟨a.trans hch, b⟩
    · exact ⟨hch, hf⟩

/-- The output that enters FAULT (R23). -/
theorem toFault_ch (s : State) (n : Out) (k : FaultKind) :
    (toFault s n k).ch n = (s.ch n).faulted k ∧ NoEntry (toFault s n k) n := by
  have hf : NoEntry ((dequeue (s.updCh n (·.faulted k)) n).hand (faultFrame s.own n k)) n :=
    NoEntry.of_queue rfl (noEntry_dequeue (s.updCh n (·.faulted k)) n)
  obtain ⟨a, b⟩ := updateStanding_alone _ n hf
  unfold toFault
  refine ⟨?_, b⟩
  rw [a, hand_ch, dequeue_ch, updCh_ch, if_pos rfl]

/-! ### The other parts of the state -/

theorem CoilWork.prof {s t : State} (h : CoilWork s t) (n : Out) : t.prof n = s.prof n := by
  unfold CoilWork at h
  rw [h]
  rfl

theorem CoilWork.tick {s t : State} (h : CoilWork s t) : t.tick = s.tick := by
  unfold CoilWork at h
  rw [h]

theorem CoilWork.own {s t : State} (h : CoilWork s t) : t.own = s.own := by
  unfold CoilWork at h
  rw [h]
  rfl

theorem selectLoop_standing (k : Nat) (s : State) :
    (selectLoop k s).db.standing = s.db.standing := by
  induction k generalizing s with
  | zero => rfl
  | succ k ih =>
    unfold selectLoop
    split
    · rfl
    · split
      · rfl
      · split
        · rw [ih]
          unfold decide_
          repeat' split
          all_goals rfl
        · rfl

theorem selectLoop_table {k : Nat} {s : State} (h : s.isolated = false) :
    (selectLoop k s).db.table = s.db.table := by
  cases k with
  | zero => rfl
  | succ k =>
    unfold selectLoop
    split
    · rfl
    · split
      · rfl
      · simp only [h]
        rfl

theorem selectLoop_deny {k : Nat} {s : State} (h : s.isolated = false) :
    (selectLoop k s).db.deny = s.db.deny := by
  cases k with
  | zero => rfl
  | succ k =>
    unfold selectLoop
    split
    · rfl
    · split
      · rfl
      · simp only [h]
        rfl

/-- A selection places a frame in slot 0 alone. -/
theorem selectLoop_slots (k : Nat) (s : State) (j : Fin 4) (h : j ≠ 0) :
    (selectLoop k s).lc.slots.get j = s.lc.slots.get j := by
  induction k generalizing s with
  | zero => rfl
  | succ k ih =>
    unfold selectLoop
    split
    · rfl
    · split
      · rfl
      · split
        · rw [ih, decide_lc]
        · exact Bank.get_set_ne _ _ h

end Sys2Proof.Machine
end

