-- ==== Sys2Proof/WellFormed.lean ====
section
/-!
DEFINITION. Which commands can be spelt on this hardware: what the types of the operands do not
already say.
-/
namespace Sys2Proof

/-- A frame carries 0 to 8 payload bytes (R131, R134). -/
def Heard.wellFormed (f : Heard) : Bool :=
  decide (f.payload.length ≤ 8)

/-- The kinds with no row of their own: FAULT NOTICE, STATUS and the unknown kinds (R139). -/
def plainKind (k : BitVec 5) : Bool :=
  let n := k.toNat
  n == 5 || n == 6 || n == 7 || (9 ≤ n && n ≤ 15) || 24 ≤ n

/-- The image has 993 bytes and SL reads no further (R178, Table 12-5). -/
def imageBytes : Nat := 993

/-- A command that the outside, or the station's own time, can bring about. -/
def Instr.wellFormed : Instr → Bool
  | .imageCheck image => decide (image.length ≤ imageBytes)
  | .fire f => f.wellFormed
  | .hold f => f.wellFormed
  | .release f => f.wellFormed
  | .train f => f.wellFormed
  | .trainStop f => f.wellFormed
  | .lamp f => f.wellFormed
  | .clear f => f.wellFormed
  | .query f => f.wellFormed
  | .claimHeard f => f.wellFormed
  | .standingHeard f => f.wellFormed
  | .heardFrame k f => plainKind k && f.wellFormed
  | .beatReceived f _ _ => f.wellFormed
  | .tiltReceived f => f.wellFormed
  | .gameReceived f => f.wellFormed
  | .eventReceived f => f.wellFormed
  | .transmitError _ _ => true
  -- bit and acknowledge errors are found by a transmitter alone (R141)
  | .receiveError k => k != .bit && k != .ack
  | .powerOnReset _ _ | .resetLineAssert | .resetLineRelease _ | .joiningEnd
  | .unconfiguredStatus | .guardPassed _ | .waitLimitExpiry _ | .frameOffer | .arbitrationLost
  | .ownFrameComplete | .recoveryComplete | .stopPattern | .stopPatternEnd | .powerEnd _
  | .maxHoldExpiry _ | .coolEnd _ | .trainPulseEnd _ | .burstPulseStart _ | .burstCoolEnd _
  | .openCheckRequest _ | .currentConversionEnd _ | .supplySlot | .supplyReadingEnd _
  | .fastTrip _ _ | .flipperTrip _ _ _ | .heatDecayPass | .entryExpiry | .ageingOut _
  | .refreshExpiry | .rawChange _ _ | .debounceEnd _ | .stuckEnd _ | .flipperWindowEnd _
  | .flipperPowerEnd _ | .repowerEnd _ | .holdLimitEnd _ | .windowStart _ | .beatPhaseZero
  | .beatWithdraw | .integratingEnd => true

end Sys2Proof
end

