-- ==== Sys2Proof/Tests/Slice0.lean ====
section
/-!
SUPPORT. Small tests: what the well-formedness check refuses, single steps worked by hand from the
manual's examples, and for every hypothesis of a statement a state that meets it.
-/
namespace Sys2Proof.Tests

open Sys2Proof Sys2Proof.Machine

-- one theorem after the other: each evaluation takes a thread of its own
set_option Elab.async false

/-! ### The serial memory (R178) -/

theorem test_bytes_clocked :
    bytesClocked [] = 1 ∧ bytesClocked [1, 3, 224] = 3 ∧ bytesClocked [1, 3, 225] = 993 := by
  decide +kernel

/-! ### States to test on -/

/-- C3: PULSE_HOLD, class 1, base 44, duty 4, max hold 50 ms, cool 100, 4.6 ohm, heat limit 400,
decay 20, depth 1, wait limit 30 ms, open threshold 10, trip 3000, burst 4. -/
def coil : Profile := ⟨.pulseHold, 1, 44, 4, 50, 100, 46, 400, 20, 1, some 30, 10, 3000, 0, 4⟩

/-- C14 and C15: the outputs of flipper 0. -/
def winding : Profile := ⟨.flipper, 0, 0, 0, 0, 0, 46, 400, 20, 0, none, 0, 3000, 0, 1⟩

/-- Flipper 0: button S10, EOS S11, power output C14, hold output C15. -/
def flipper0 : FlipSettings := ⟨true, 10, some 11, 14, some 15, 400, 100, 200, 2, 4, 1000⟩

def config : Settings :=
  { Settings.blank with
    station := ⟨true, true, 6000, 1500, 1500, 430, 300, 0, 4, 40, 4⟩
    profiles := ((Settings.blank.profiles.set 3 coil).set 14 winding).set 15 winding
    flippers := Settings.blank.flippers.set 0 flipper0
    switches := .fill 24 ⟨false, 3, 5, some 100⟩
    filters := (Settings.blank.filters.set 2 (.list 5001 7 5002 8)).set 3 (.mask 0 1023 9) }

/-- Station 5 in RUN and PLAY, its supply good, LC in INTERFRAME, nothing under way. -/
def run : State :=
  { State.reset with
    tick := 20000
    cfg := config
    sl := ⟨.run, .none, 5, 3000, 0, false⟩
    sc := { Sense.reset with supply := 437, supplyState := .normal }
    lp := { Lamps.reset with beatOn := true, phase := 100, beat := 8 }
    lc := { Link.reset with started := true, rate500 := true, phase := .interframe }
    cs.chan := (Coils.reset.chan.set 14 { Channel.reset with state := .flipper }).set 15
      { Channel.reset with state := .flipper }
    pc := ⟨.play, false, 0⟩ }

/-- `run` with C3 changed. -/
def withCoil (g : Channel → Channel) : State := run.updCh 3 g

/-- `run` with an entry of C3. -/
def withEntry (s : State) (e : Entry) : State := { s with cs.queue := [e] }

/-- An entry of C3 made 900 ticks ago. -/
def waiting : Entry := ⟨3, 1, 19100, false, true, false, false, none⟩

/-- `run` with a frame in a slot. -/
def withSlot (s : State) (i : Fin 4) (sl : Slot) : State :=
  { s with lc.slots := s.lc.slots.set i (some sl) }

/-- `run` with S10 or another switch in a state. -/
def withSwitch (s : State) (sw : Sw) (r : Switch) : State := s.setSw sw r

/-- `run` with flipper 0 changed. -/
def withFlipper (g : Flipper → Flipper) : State :=
  { run with fl := run.fl.set 0 (g (run.fl.get 0)) }

/-- `run` SILENT. -/
def silent : State := { run with lc.state := .silent, lc.TEC := 192 }

/-- A train of 13 pulses in bursts of 4, 9 to come. -/
def train13 : Train := ⟨false, 9, 100, 4, some 21, false, 1, false, some ⟨4, 144, 44, 1, 19956⟩⟩

/-- A COUNT train request. -/
def count13 : TrainReq := ⟨false, 13, 100, none, some 21⟩

/-- The frame of a command: destination 5, output 3, more bytes. -/
def command (rest : List Byte) : Heard := ⟨7, 9, 5 :: 3 :: rest⟩

/-- The bytes of `count13`. -/
def count13Frame : Heard := command [0, 13, 0, 100, 0, 21]

/-- A claim in flight for C3. -/
def claim3 : Claim := ⟨3, 1, 950, 44, none, 44, false⟩

def claimFrame3 : Frame := claimFrame 5 1 3 950 44

/-- `run` with the claim of C3 on the wire and its entry in flight. -/
def claiming : State :=
  { withSlot (withEntry (withCoil (·.to .queued)) { waiting with waits := false, inFlight := true }) 0
      ⟨claimFrame3, true, 0⟩ with db.claim := some claim3 }

/-- `run` with slots 2 and 3 full and a frame in slot 2 on the wire. -/
def sending (fails : Nat) : State :=
  withSlot (withSlot run 2 ⟨faultFrame 5 3 .open, true, fails⟩) 3 ⟨noPageFrame 5 30, false, 0⟩

/-! ### Well-formedness (one ill-formed command for each check) -/

theorem test_wf_payload_of_nine :
    (Instr.fire ⟨7, 9, List.replicate 9 0⟩).wellFormed = false := by decide
theorem test_wf_image_past_993 : (Instr.imageCheck (List.replicate 994 0)).wellFormed = false := by
  decide +kernel
theorem test_wf_kind_with_a_row : (Instr.heardFrame 16 ⟨7, 9, []⟩).wellFormed = false := by decide
theorem test_wf_receiver_bit_error : (Instr.receiveError .bit).wellFormed = false := by decide
theorem test_wf_receiver_ack_error : (Instr.receiveError .ack).wellFormed = false := by decide
theorem test_wf_accepts :
    (Instr.heardFrame 31 ⟨7, 9, List.replicate 8 0⟩).wellFormed = true ∧
      (Instr.imageCheck []).wellFormed = true ∧ (Instr.receiveError .check).wellFormed = true := by
  decide

/-! ### Worked figures -/

/-- Draw and stretch of section 2.8's kind: 4.6 ohm on 43.0 V, and a sag to 30.0 V. -/
theorem test_draw_and_stretch :
    drawOf 46 430 437 = 950 ∧ stretch 44 430 437 = 44 ∧ stretch 44 430 300 = 64 ∧
      stretch 44 430 215 = 88 ∧ stretch 2000 430 0 = 2000 := by decide

/-- Ceilings of R54 with L = 2500 and F = 1200. -/
theorem test_ceilings :
    let s := { run with cfg.station.limL := 2500, cfg.station.resF := 1200 }
    s.ceiling 1 = 1300 ∧ s.ceiling 2 = 975 ∧ s.ceiling 3 = 650 := by decide +kernel

/-- The stuffed BEAT of beat 88 of station 2, worked in section 8.2, up to its last payload bit. -/
theorem test_beat_on_the_wire :
    (wireBits ⟨0, 0, 2, [88]⟩ 200 sofTaken).take 29 =
      [false, false, false, false, false, true, false, false, false, false, false, false, true,
        false, true, false, false, false, false, false, true,
        false, true, false, true, true, false, false, false] := by decide +kernel

/-- The merge of section 3.8 at tick 30850. -/
theorem test_full_table_merges :
    let relay : DrawEntry := ⟨7, 12, 120, 30900, false⟩
    let others := List.replicate 23 (⟨9, 1, 33, 30860, false⟩ : DrawEntry)
    addEntry 30850 ⟨2, 6, 300, 30890, false⟩ (others ++ [relay]) =
      others ++ [{ relay with draw := 420 }] := by decide +kernel

/-! ### Single steps of the link -/

/-- An own FAULT NOTICE on the wire, its start-of-frame bit taken, the next bit dominant. -/
def frameBegun : State :=
  let s := withSlot run 2 ⟨faultFrame 5 3 .open, true, 0⟩
  { s with
    bitDue := true
    lc := { s.lc with
      phase := .frame, rx := some ⟨true, 20000, 100, 8, [false, true, false, false, false], false, 3,
        none, false⟩ } }

/-- A bit sent dominant that does not reach the pair is a bit error (R133, R141). -/
theorem test_dominant_bit_cut :
    let s := { frameBegun with lines.linkIn := [⟨false, true⟩] }
    driveLevel s = false ∧ (linkBit s).lc.err = some ⟨.bit, true, 20000, true⟩ ∧
      (linkBit s).lc.phase = .errorSignal ∧ (linkBit s).pending = [] := by decide +kernel

/-- A frame received with a bad check, at the last bit before its end field. -/
def badCheckFrame : Progress := ⟨false, 19950, 90, 8, [false], false, 1, some 2, true⟩

/-- At REC 95 the check error of a receiver settles at the acknowledge delimiter, and the signal that
begins at the next bit is that of PASSIVE (R142, R143, R155, R156). -/
theorem test_passive_signal_at_96 :
    let s := { run with
      bitDue := true
      lc := { run.lc with
        phase := .frame, REC := 95, rx := some badCheckFrame
        err := some ⟨.check, false, 19990, true⟩ } }
    (linkBit s).pending = [.receiveError .check] ∧
      ∃ t, exec (.receiveError .check) { linkBit s with pending := [] } = .next t ∧
        t.lc.state = .passive ∧ t.lc.phase = .errorSignal ∧ driveLevel t = true :=
  ⟨by decide +kernel, _, rfl, by decide +kernel⟩

/-- `sending` with an error found at a bit of this level, its STOP pattern recognised. -/
def stopAfterError (kind : ErrKind) (recessive : Bool) : Link :=
  ({ (sending 2).lc with err := some ⟨kind, true, 19990, recessive⟩ } : Link).stopRecognised

/-- An acknowledge error found at the recessive bit before the STOP pattern is settled after it, its frame
left ON WIRE; an error found within the pattern is void, and cuts its frame short (R143, R145, R153). -/
theorem test_error_before_stop :
    (stopAfterError .ack true).err = some ⟨.ack, true, 19990, true⟩ ∧
      (stopAfterError .ack true).slots.get 2 = some ⟨faultFrame 5 3 .open, true, 2⟩ ∧
      (stopAfterError .bit false).err = none ∧
      (stopAfterError .bit false).slots.get 2 = some ⟨faultFrame 5 3 .open, false, 2⟩ := by
  decide +kernel

/-! ### A state for every hypothesis of the statements -/

/-- `run` with the own record present, as RUN has it. -/
def sound : State := { run with db.standing := run.db.standing.set 5 ⟨0, 0, true⟩ }

theorem test_w_bounded : Bounded run ∧ ∃ t, step run = .next t :=
  ⟨by unfold Bounded; decide +kernel, _, rfl⟩
theorem test_w_coils_sound : CoilsSound sound ∧ ∃ t, step sound = .next t := by
  refine ⟨⟨⟨by decide, List.nodup_nil, by decide +kernel, by decide +kernel, List.Pairwise.nil⟩,
    ⟨fun _ h => absurd h List.not_mem_nil, fun _ h => by cases h⟩, fun n => ?_, ?_,
    ⟨by decide +kernel, fun _ => ⟨5, by decide, by decide +kernel⟩⟩, ?_,
    fun h => absurd rfl h, fun h => absurd h (by decide +kernel)⟩, _, rfl⟩
  · unfold OutputSound Closed
    revert n
    decide +kernel
  · unfold FlippersSound
    decide +kernel
  · unfold StandingSound
    decide +kernel
theorem test_w_slots_sound : SlotsSound claiming ∧ ∃ t, step claiming = .next t := by
  refine ⟨⟨⟨fun h => (by cases h), fun h => ?_⟩, by decide +kernel, by decide +kernel,
    by decide +kernel, by decide +kernel⟩, _, rfl⟩
  revert h
  decide +kernel
theorem test_w_no_reset :
    (∃ t, step run = .next t) ∧ (∀ c ∈ run.pending.head?, ¬ Resets c) ∧
      (∃ t, step { run with pending := [.beatWithdraw] } = .next t) ∧ ¬ Resets .beatWithdraw ∧
      run.sl.station = .run ∧
      ({ run with sl.station := .unconfigured } : State).sl.station = .unconfigured ∧
      ({ run with pc.state := .slam } : State).pc.state = .slam :=
  ⟨⟨_, rfl⟩, fun _ h => (by cases h), ⟨_, rfl⟩, fun h => h, rfl, rfl, rfl⟩

/-! Selection -/

/-- Nothing is halved where the whole fits. -/
theorem halved_whole (fits : Nat → Prop) (k : Nat) (h : fits k) : Halved fits k k :=
  ⟨0, (Nat.div_one k).symm, .inl h, fun _ hj => absurd hj (Nat.not_lt_zero _)⟩

/-- C3 in QUEUED with an entry that may be selected. -/
def selecting : State := withEntry (withCoil (·.to .queued)) { waiting with waits := false }

theorem test_w_chosen : Chosen selecting { waiting with waits := false } :=
  ⟨[], [], rfl, ⟨rfl, by decide +kernel, rfl, rfl, rfl,
    ⟨1, halved_whole _ _ (by decide +kernel), by decide +kernel⟩, by decide +kernel⟩,
    fun _ h => absurd h List.not_mem_nil⟩
theorem test_w_chosen_modes :
    selecting.db.claim = none ∧ selecting.isolated = false ∧
      ({ selecting with lc.state := .silent } : State).isolated = true ∧
      claiming.db.claim.isSome = true ∧
      [(⟨3, 1, 0, false, false, false, false, none⟩ : Entry), ⟨4, 2, 0, false, false, false, false,
        none⟩].Pairwise (fun a b => a.cls ≤ b.cls) := by decide +kernel
theorem test_w_chosen_isolated :
    Chosen { selecting with lc.state := .silent } { waiting with waits := false } :=
  ⟨[], [], rfl, ⟨rfl, by decide +kernel, rfl, rfl, rfl,
    ⟨1, halved_whole _ _ (by decide +kernel), by decide +kernel⟩, by decide +kernel⟩,
    fun _ h => absurd h List.not_mem_nil⟩
theorem test_w_none_chosen : ∀ e, ¬ Chosen (withEntry (withCoil (·.to .queued)) waiting) e := by
  rintro e ⟨ahead, behind, h, he, _⟩
  cases ahead with
  | nil =>
    cases h
    exact absurd he.2.2.2.1 (by decide)
  | cons a l =>
    have := congrArg List.length h
    simp [withEntry] at this

theorem test_w_off_fire : Pre.offRequest run .fire (command []) 3 (.fire none) := by decide +kernel
theorem test_w_off_fire_override :
    Pre.offRequest run .fire (command [7, 208]) 3 (.fire (some 2000)) := by decide +kernel
theorem test_w_off_hold : Pre.offRequest run .hold (command []) 3 .hold ∧ 3 ∉ run.powerEnded := by
  decide +kernel
theorem test_w_off_train : Pre.offRequest run .train count13Frame 3 (.train count13) := by
  decide +kernel
theorem test_w_alone_fire :
    Pre.alone silent .fire (command []) 3 (.fire none) 44 950 44 ∧
      HeatPasses (silent.ch 3).heat (silent.prof 3).heatLimit 1 44 :=
  ⟨by decide +kernel, 1, halved_whole _ _ (by decide +kernel), by decide +kernel⟩
theorem test_w_alone_train :
    Pre.alone silent .train count13Frame 3 (.train count13) 44 950 44 ∧
      firstPulses silent 3 count13 = 4 ∧
      HeatPasses (silent.ch 3).heat (silent.prof 3).heatLimit 4 44 ∧
      144 = max count13.period (44 + (silent.prof 3).cool) ∧
      Halved (fun j => (j - 1) * 144 + 44 ≤ 65535) 4 4 ∧
      Halved (fun j => j * 44 ≤ (silent.prof 3).heatLimit) 4 4 :=
  ⟨by decide +kernel, by decide +kernel,
    ⟨4, halved_whole _ _ (by decide +kernel), by decide +kernel⟩, by decide +kernel,
    halved_whole _ _ (by decide), halved_whole _ _ (by decide +kernel)⟩
/-- With a heat limit of 100, four pulses of 44 are halved to two. -/
theorem test_w_halved : Halved (fun j => j * 44 ≤ 100) 4 2 := by
  refine ⟨1, rfl, .inl (by decide), fun j hj => ?_⟩
  obtain rfl : j = 0 := by omega
  exact ⟨by decide, by decide⟩

/-! Requests -/

theorem test_w_busy_fire :
    Pre.busyRequest (withCoil (·.to .power)) .fire (command []) 3 (.fire none) := by decide +kernel
theorem test_w_busy_fire_full :
    let s := withCoil fun c => { c with state := .cool, repeats := 1 }
    Pre.busyRequest s .fire (command []) 3 (.fire none) ∧
      ¬ (s.ch 3).repeats < (s.prof 3).depth := by decide +kernel
theorem test_w_busy_hold :
    Pre.busyRequest (withCoil (·.to .hold)) .hold (command []) 3 .hold ∧
      ¬ Pre.holdAtEnd (withCoil (·.to .hold)) (command []) 3 ∧
      Pre.busyRequest (withCoil (·.to .cool)) .hold (command []) 3 .hold ∧
      ¬ Pre.holdAtEnd (withCoil (·.to .cool)) (command []) 3 :=
  ⟨by decide +kernel, by decide +kernel, by decide +kernel, by decide +kernel⟩
theorem test_w_hold_at_end :
    Pre.holdAtEnd { withCoil (·.to .cool) with powerEnded := [3] } (command []) 3 ∧
      Pre.holdAtEnd { run with powerEnded := [7, 3] } (command []) 3 ∧ Pre.number run.own 5 := by
  decide +kernel
theorem test_w_release_without_effect :
    Pre.offRequest run .release (command []) 3 .release ∧
      ∀ st ∈ [ChanState.power, .cool, .gap, .queued],
        let s := withCoil fun c => { c with state := st, train := some train13 }
        Pre.coil s .release (command []) 3 .release ∧ Pre.inTrain (s.ch 3) train13 := by
  decide +kernel
theorem test_w_busy_release :
    Pre.busyRequest (withCoil (·.to .queued)) .release (command []) 3 .release ∧
      ((withCoil (·.to .queued)).ch 3).state ≠ .hold := by decide +kernel
theorem test_w_release_hold :
    let s := withCoil (·.to .hold)
    Pre.releaseHold s (command []) 3 ∧ Pre.number s.own 5 ∧ (∀ e ∈ s.cs.queue, e.output ≠ 3) ∧
      (s.prof 3).cool ≠ 0 := by decide +kernel
theorem test_w_release_hold_no_cool :
    let s := { withCoil (·.to .hold) with
      cfg.profiles := config.profiles.set 3 { coil with cool := 0 } }
    Pre.releaseHold s (command []) 3 ∧ Pre.number s.own 5 ∧ (∀ e ∈ s.cs.queue, e.output ≠ 3) ∧
      (s.prof 3).cool = 0 := by decide +kernel
theorem test_w_faulted : Pre.faulted (withCoil (·.to .fault)) .fire (command []) 3 (.fire none) := by
  decide +kernel
theorem test_w_refused_fire :
    Pre.refused (withCoil fun c => { c with state := .power, train := some train13 }) .fire
      (command []) 3 (.fire none) :=
  ⟨by decide +kernel, .inl ⟨train13, by decide +kernel, .inl ⟨none, rfl⟩⟩⟩
theorem test_w_refused_busy : Pre.refused (withCoil (·.to .power)) .train count13Frame 3
    (.train count13) :=
  ⟨by decide +kernel, .inr ⟨by decide +kernel, count13, rfl⟩⟩
theorem test_w_gated :
    let s := { run with pc.state := .tilt }
    Pre.takes s .fire (command []) (.coil 3 (.fire none)) ∧ ClassOff s.pc.state (s.prof 3).cls ∧
      Pre.takes { run with pc.stopped := true } .fire (command []) (.coil 3 (.fire none)) := by
  decide +kernel
theorem test_w_malformed :
    Pre.admitted run .fire ⟨7, 9, []⟩ ∧ (∀ c, ¬ Reads run.cfg .fire [] c) ∧
      Pre.admitted run .query ⟨7, 9, [5]⟩ ∧ (∀ c, ¬ Reads run.cfg .query [5] c) :=
  ⟨by decide +kernel,
    fun c ⟨_, _, h⟩ => h.elim (fun h => absurd h.1 (by decide)) (fun h => absurd h.1 (by decide)),
    by decide +kernel, fun c h => absurd h.1 (by decide)⟩
theorem test_w_other_station :
    run.canReceive = true ∧ addressed run.own [6, 3] = false ∧ addressed run.own [5, 3] = true ∧
      addressed run.own [63, 3] = true := by decide +kernel
theorem test_w_no_state_admits :
    let s := { run with sl.station := .joining }
    s.canReceive = true ∧ s.sl.station ≠ .run ∧
      ¬ (s.sl.station = .unconfigured ∧ CommandKind.fire = .query) := by decide +kernel
theorem test_reads :
    readCommand config .train count13Frame.payload = some (.coil 3 (.train count13)) ∧
      readCommand config .fire [5, 3, 7, 208] = some (.coil 3 (.fire (some 2000))) ∧
      readCommand config .fire [5, 3, 7, 209] = none ∧ readCommand config .fire [5, 3, 1] = none ∧
      readCommand config .hold [5, 4] = none ∧
      readCommand config .trainStop [5, 3, 2] = none ∧
      readCommand config .clear [5, 15] = some (.clear 15) ∧
      readCommand config .clear [5, 0] = none ∧
      readCommand config .lamp [5, 15, 2, 16, 0, 0] = none ∧
      readCommand config .query [5, 23] = some (.query 23) := by decide +kernel
theorem test_w_train_add :
    Pre.trainAdd (withCoil fun c => { c with state := .gap, train := some train13 }) count13Frame
      3 count13 train13 := by decide +kernel
theorem test_w_stop_graceful :
    ∀ st ∈ [ChanState.power, .cool, .gap, .queued],
      let s := withCoil fun c => { c with state := st, train := some train13 }
      Pre.stop s (command [0]) 3 false train13 ∧ (s.ch 3).state = st := by decide +kernel
theorem test_w_stop_cancel :
    ∀ st ∈ [ChanState.power, .cool, .gap, .queued],
      let s := withCoil fun c => { c with state := st, train := some train13 }
      Pre.stop s (command [1]) 3 true train13 ∧ (s.ch 3).state = st := by decide +kernel
theorem test_w_stop_none :
    Pre.coil run .trainStop (command [0]) 3 (.trainStop false) ∧ (run.ch 3).train = none ∧
      (run.ch 3).state ≠ .fault := by decide +kernel
theorem test_w_lamp :
    Pre.takes run .lamp ⟨7, 9, [63, 15, 2, 15, 170, 85]⟩ (.lampSet 15 .flash 15 0xAA55) := by
  decide +kernel
theorem test_w_clear :
    Pre.clear run (command []) 3 ∧ (run.ch 3).state ≠ .fault ∧
      Pre.clear (withCoil (·.to .fault)) (command []) 3 ∧
      (coil.mode.isCS = true) := by decide +kernel
theorem test_w_clear_flipper :
    let s := { run with cs.chan := run.cs.chan.set 15 { Channel.reset with state := .fault } }
    Pre.clear s ⟨7, 9, [5, 15]⟩ 15 ∧ (s.ch 15).state = .fault ∧ (s.prof 15).mode = .flipper ∧
      s.cfg.flipperOf 15 = some 0 := by decide +kernel
theorem test_w_query :
    Pre.query run ⟨7, 9, [5, 0]⟩ 0 ∧ Pre.query run ⟨7, 9, [5, 6]⟩ 6 ∧
      Pre.query run ⟨7, 9, [5, 23]⟩ 23 ∧ Pre.query run ⟨7, 9, [5, 7]⟩ (7 + (0 : Out).val) ∧
      Pre.query run ⟨7, 9, [5, 22]⟩ (7 + (15 : Out).val) ∧
      Pre.query { run with sl.station := .unconfigured } ⟨7, 9, [63, 0]⟩ 0 ∧
      (heard run ⟨7, 9, [5, 22]⟩).lc.state ≠ .silent ∧
      (heard silent ⟨7, 9, [5, 22]⟩).lc.state = .silent := by decide +kernel

/-! Phases of an output -/

theorem test_w_guard : Pre.guard (withEntry run waiting) 3 waiting := by decide +kernel
theorem test_w_wait_limit : Pre.waitLimit (withEntry run waiting) 3 waiting 30 := by decide +kernel
theorem test_w_power_end_open :
    let s := withCoil fun c => { c with state := .power, phaseEnd := 20000, openCount := 3 }
    Pre.powerEnd s 3 ∧ (s.ch 3).openCount = 3 ∧ Pre.number s.own 5 := by decide +kernel
theorem test_w_power_end_hold :
    let s := withCoil fun c => { c with state := .power, phaseEnd := 20000, holdWanted := true }
    Pre.powerEnd s 3 ∧ Pre.number s.own 5 ∧ (s.ch 3).openCount ≠ 3 ∧
      (s.prof 3).mode = .pulseHold ∧ (s.ch 3).holdWanted = true := by decide +kernel
theorem test_w_power_end_cool :
    let s := withCoil fun c => { c with state := .power, phaseEnd := 20000 }
    Pre.powerEnd s 3 ∧ (s.ch 3).openCount ≠ 3 ∧
      ¬ ((s.prof 3).mode = .pulseHold ∧ (s.ch 3).holdWanted = true) := by decide +kernel
/-- C3 at the end of its power time, hold-wanted clear. -/
def ending : State := withCoil fun c => { c with state := .power, phaseEnd := 20000, draw := 950 }

/-- `ending` with POWER_END taken. -/
def ended : State := coolFrom (ending.notePowerEnd 3) 3

theorem test_w_power_end_then_hold :
    Pre.powerEnd ending 3 ∧ Pre.number ending.own 5 ∧ (ending.ch 3).openCount ≠ 3 ∧
      (ending.prof 3).mode = .pulseHold ∧ (ending.ch 3).holdWanted = false ∧
      0 < (ending.prof 3).cool ∧ Pre.coil ended .hold (command []) 3 .hold ∧
      ∃ t, exec (.powerEnd 3) ending = .next t ∧ t = ended :=
  ⟨by decide +kernel, by decide +kernel, by decide +kernel, by decide +kernel, by decide +kernel,
    by decide +kernel, by decide +kernel, _, rfl, rfl⟩

/-- The same with a cool time of 0: the output is in OFF when the HOLD comes. -/
theorem test_w_power_end_then_hold_no_cool :
    let s := { ending with cfg.profiles := config.profiles.set 3 { coil with cool := 0 } }
    let t := coolFrom (s.notePowerEnd 3) 3
    Pre.powerEnd s 3 ∧ (s.ch 3).repeats = 0 ∧ (t.ch 3).state = .off ∧
      Pre.coil t .hold (command []) 3 .hold := by decide +kernel

/-- A HOLD and the end of POWER at one instant lead to HOLD in either order (R16); 2 µs later the HOLD
only sets hold-wanted (R7). -/
theorem test_hold_with_power_end :
    ((takeRequest ended 3 .hold).ch 3).state = .hold ∧
      ((takeRequest ended 3 .hold).ch 3).holdDraw = 238 ∧
      ((enterHold ((takeRequest ending 3 .hold).notePowerEnd 3) 3).ch 3).holdDraw = 238 ∧
      ((takeRequest (passTime ended) 3 .hold).ch 3).state = .cool ∧
      ((takeRequest (passTime ended) 3 .hold).ch 3).holdWanted = true := by decide +kernel
theorem test_w_max_hold :
    let s := withCoil fun c => { c with state := .hold, phaseEnd := 20000 }
    Pre.over s 3 .hold ∧ Pre.number s.own 5 ∧ ∀ e ∈ s.cs.queue, e.output ≠ 3 := by decide +kernel
theorem test_w_cool_end :
    let s := withCoil fun c => { c with state := .cool, phaseEnd := 20000 }
    Pre.over s 3 .cool ∧ (s.ch 3).train = none ∧ (s.ch 3).repeats = 0 ∧
      ((s.updCh 3 (·.owing 1)).ch 3).repeats ≠ 0 := by decide +kernel
theorem test_w_train_pulse_end :
    let s := withCoil fun c => { c with state := .power, phaseEnd := 20000, train := some train13 }
    Pre.pulseEnd s 3 train13 ∧ (s.ch 3).openCount ≠ 3 ∧
      Pre.moreToCome train13 ⟨4, 144, 44, 1, 19956⟩ := by decide +kernel
theorem test_w_train_pulse_last :
    let tr := { train13 with burst := some ⟨4, 144, 44, 4, 19956⟩ }
    let s := withCoil fun c => { c with state := .power, phaseEnd := 20000, train := some tr }
    Pre.pulseEnd s 3 tr ∧ (s.ch 3).openCount ≠ 3 ∧ ∀ b, ¬ Pre.moreToCome tr b :=
  ⟨by decide +kernel, by decide +kernel, fun b h => by
    obtain ⟨h, k, _⟩ := h
    cases h
    exact absurd k (by decide)⟩
theorem test_w_train_pulse_open :
    let s := withCoil fun c =>
      { c with state := .power, phaseEnd := 20000, train := some train13, openCount := 3 }
    Pre.pulseEnd s 3 train13 ∧ (s.ch 3).openCount = 3 ∧ Pre.number s.own 5 := by decide +kernel
theorem test_w_pulse_start :
    let r := withCoil fun c => { c with state := .gap, train := some train13 }
    let s : State := { r with tick := 20100 }
    Pre.pulseStart s 3 train13 ⟨4, 144, 44, 1, 19956⟩ := by decide +kernel
theorem test_w_burst_cool_end :
    let s := withCoil fun c => { c with state := .cool, phaseEnd := 20000, train := some train13 }
    Pre.over s 3 .cool ∧ (s.ch 3).train = some train13 := by decide +kernel

/-! Sensing -/

theorem test_w_open_check :
    let s := withCoil fun c => { c with state := .power, checkDue := some 20000 }
    Pre.check s 3 20000 := by decide +kernel
theorem test_w_converting :
    Pre.converting { run with sc.conv := some ⟨.current 3 19990, 0⟩ } 3 19990 0 := by decide +kernel
theorem test_w_supply_slot : Pre.slot { run with falling := [.supplySlot] } := by decide +kernel
theorem test_w_served :
    let sc := { Sense.reset with
      waitSupply := .waiting, waitCurrent := Sense.reset.waitCurrent.set 3 (some 19990) }
    sc.conv = none ∧ sc.waitSupply ≠ .overdue ∧ sc.waitCurrent.get 3 = some 19990 ∧
      (∀ m : Out, m < 3 → sc.waitCurrent.get m = none) ∧
      (∀ n : Out, Sense.reset.waitCurrent.get n = none) ∧
      ({ sc with waitSupply := .overdue } : Sense).waitSupply = .overdue ∧
      ({ sc with conv := some ⟨.supply, 4⟩ } : Sense).conv ≠ none := by decide +kernel
theorem test_w_supply :
    Pre.supply { run with sc.conv := some ⟨.supply, 0⟩ } 0 ∧
      Pre.supplyUnconfigured
        { run with sc.conv := some ⟨.supply, 0⟩, sl.station := .unconfigured } 0 := by
  decide +kernel
theorem test_w_supply_blank :
    let s := { run with cfg := .blank, sc.conv := some ⟨.supply, 0⟩, sl.station := .unconfigured }
    SettingsSound s ∧ Pre.supplyUnconfigured s 0 := ⟨fun _ => rfl, by decide +kernel⟩
theorem test_w_heat_pass :
    let s := { run with falling := [.heatDecay] }
    Falling.heatDecay ∈ s.falling ∧ (∀ n, (s.ch n).heat = 0 ∨ (s.prof n).heatDecay = 0) ∧
      (let t := s.updCh 3 fun c => { c with heat := 9 }
      Falling.heatDecay ∈ t.falling ∧ ∃ n, 0 < (t.ch n).heat ∧ 0 < (t.prof n).heatDecay) := by
  decide +kernel
theorem test_w_trip :
    Pre.trip (withCoil (·.to .gap)) 3 3001 ∧ Pre.number run.own 5 ∧
      ¬ Pre.trip (withCoil (·.to .gap)) 3 3000 ∧ ¬ Pre.trip (withCoil (·.to .cool)) 3 3001 ∧
      ¬ Pre.trip (withFlipper fun r => { r with state := .power }) 14 3001 := by decide +kernel
theorem test_w_flipper_trip :
    let s := withFlipper fun r => { r with state := .power }
    Pre.flipTrip s 0 14 3001 ∧ Pre.flipTrip s 0 15 3001 ∧ Pre.windings s 0 14 15 ∧
      Pre.windings s 0 15 14 ∧ Pre.number s.own 5 ∧
      Pre.flipTrip (withFlipper fun r => { r with state := .hold }) 0 15 3001 := by decide +kernel

theorem test_w_flipper_no_trip :
    let s := withFlipper fun r => { r with state := .power }
    s.cfg.flipperOf 14 = some 0 ∧ s.cfg.flipperOf 15 = some 0 ∧ ¬ Pre.flipTrip s 0 14 3000 ∧
      ¬ Pre.flipTrip s 0 15 3000 ∧ (∀ f, ¬ Pre.flipTrip run f 14 3001) ∧
      ∀ f, ¬ Pre.flipTrip s f 3 3001 := by decide +kernel

/-! The draw budget -/

theorem test_w_heard_frame :
    let s := sound
    s.canReceive = true ∧ s.viewing = true ∧ (9 : BitVec 6).toNat = (9 : Fin 63).val ∧
      (9 : BitVec 6) ≠ s.own ∧ s.own.toNat = (5 : Fin 63).val := by decide +kernel
theorem test_w_claim_heard :
    Pre.claimHeard run ⟨1, 9, [15, 15, 255, 255, 255]⟩ 15 4095 65535 ∧
      Pre.claimHeard run ⟨3, 62, [0, 0, 1, 0, 1]⟩ 0 1 1 ∧
      (List.replicate 24 (⟨9, 1, 33, 30860, false⟩ : DrawEntry)).length = 24 := by decide +kernel
theorem test_w_claim_no_effect :
    (∀ f ∈ ([⟨1, 9, [15, 15, 255, 0]⟩, ⟨0, 9, [15, 15, 255, 0, 1]⟩, ⟨4, 9, [15, 15, 255, 0, 1]⟩,
        ⟨1, 9, [16, 15, 255, 0, 1]⟩, ⟨1, 9, [15, 16, 0, 0, 1]⟩, ⟨1, 9, [15, 0, 0, 0, 1]⟩,
        ⟨1, 9, [15, 15, 255, 0, 0]⟩, ⟨1, 63, [15, 15, 255, 0, 1]⟩] : List Heard),
        ¬ ClaimFields f) ∧
      run.canReceive = true ∧
      (let s := { run with sl.station := .unconfigured }
      s.canReceive = true ∧ s.viewing = false) := by decide +kernel
theorem test_w_standing_no_effect :
    (⟨4, 9, [1]⟩ : Heard).payload.length < 2 ∧ (⟨4, 5, [1, 71]⟩ : Heard).source = run.own ∧
      (⟨4, 63, [1, 71]⟩ : Heard).source = 63 := by decide +kernel
theorem test_w_standing :
    let s := { run with db.standing := run.db.standing.set 9 ⟨400, 19000, true⟩ }
    Pre.standing s ⟨4, 9, [1, 71]⟩ 9 327 ∧ 327 < (s.db.standing.get 9).draw ∧
      (s.db.standing.get 9).present = true ∧
      Pre.standing s ⟨4, 62, [255, 255]⟩ 62 4095 ∧ (s.db.standing.get 62).present = false := by
  decide +kernel

/-- Station 9 unheard for 10000 ticks. -/
def aged : State := { run with db.standing := run.db.standing.set 9 ⟨400, 10000, true⟩ }

/-- Its record cleared. -/
def agedOut : State := { aged with db.standing := aged.db.standing.set 9 ⟨0, 10000, false⟩ }

theorem test_w_ageing : Pre.ageing aged 9 := by decide +kernel
theorem test_w_not_aged :
    let s := { run with db.standing := run.db.standing.set 9 ⟨400, 10001, true⟩ }
    (s.tick - (s.db.standing.get 9).lastHeard).toNat < 10000 ∧ s.own.toNat = 5 ∧
      (s.db.standing.get 8).present = false := by decide +kernel
theorem test_w_heard_after_ageing :
    ∃ t, exec (.ageingOut 9) aged = .next t ∧ Pre.standing t ⟨4, 9, [1, 71]⟩ 9 327 ∧
      t.canReceive = true ∧ (9 : BitVec 6).toNat = (9 : Fin 63).val :=
  ⟨viewDecrease agedOut, rfl, by decide +kernel, by decide +kernel, rfl⟩
theorem test_w_entry_expiry :
    let s := { run with db.table := [⟨5, 3, 950, 20000, false⟩, ⟨9, 1, 10, 20001, false⟩] }
    ∃ e ∈ s.db.table, reached s.tick e.expiry = true := by decide +kernel
theorem test_w_refresh : Pre.refresh { run with db.refresh := some 20000 } 20000 := by decide +kernel

/-! Own frames -/

theorem test_w_own_claim :
    Pre.ownClaim claiming claimFrame3 0 claim3 ∧ claiming.lc.state ≠ .silent ∧
      Pre.speaking claiming .ack ∧ Pre.speaking claiming .bit := by decide +kernel
theorem test_w_withdrawn_claim :
    let c := { claim3 with withdrawn := true }
    let s := { withSlot run 0 ⟨claimFrame3, true, 0⟩ with db.claim := some c }
    Pre.ownClaim s claimFrame3 0 c ∧ c.withdrawn = true ∧ Pre.speaking s .ack ∧
      Pre.speaking s .stuff := by
  decide +kernel

/-- `run` with this frame in slot 2 on the wire, slot 3 empty. -/
def sendingFrame (f : Frame) : State := withSlot run 2 ⟨f, true, 0⟩

theorem test_w_sending_plain :
    Pre.sending (sending 0) 2 (faultFrame 5 3 .open) 0 ∧ Pre.plainOwn (faultFrame 5 3 .open) ∧
      Pre.sending (withSlot run 1 ⟨beatFrame 5 8, true, 0⟩) 1 (beatFrame 5 8) 0 ∧
      Pre.plainOwn (beatFrame 5 8) ∧
      Pre.sending (withSlot run 3 ⟨noPageFrame 5 30, true, 0⟩) 3 (noPageFrame 5 30) 0 ∧
      Pre.plainOwn (noPageFrame 5 30) := by decide +kernel
theorem test_w_sending_play :
    Pre.sending (sendingFrame ⟨0, 1, 5, [1]⟩) 2 ⟨0, 1, 5, [1]⟩ 0 ∧ Assigned [1] 1 ∧
      Pre.sending (sendingFrame ⟨2, 2, 5, [2]⟩) 2 ⟨2, 2, 5, [2]⟩ 0 ∧ Assigned [2] 2 ∧
      run.sl.station = .run ∧ Pre.number run.own 5 := by decide +kernel
theorem test_w_not_assigned : ∀ code, ¬ Assigned [3] code := by
  rintro code ⟨h, k⟩
  cases h
  revert k
  decide
theorem test_w_sending_event :
    Pre.sending (sendingFrame (eventFrame 5 3 7 true 9)) 2 (eventFrame 5 3 7 true 9) 0 ∧
      (eventFrame 5 3 7 true 9).kind = 8 := by decide +kernel
theorem test_w_offer :
    let s := withSlot (withSlot { run with lc.phase := .idle } 0 ⟨claimFrame3, false, 0⟩) 3
      ⟨faultFrame 5 3 .open, false, 0⟩
    Pre.offer s 0 claimFrame3 0 := by decide +kernel
theorem test_w_lost :
    Pre.onWire claiming 0 claimFrame3 0 ∧ (∀ c ∈ claiming.db.claim, c.withdrawn = false) ∧
      Pre.onWire (sending 0) 2 (faultFrame 5 3 .open) 0 := by decide +kernel
theorem test_w_superseded :
    let s := withSlot run 2 ⟨standingFrame 5 40, true, 0⟩
    let t := withSlot s 3 ⟨standingFrame 5 50, false, 0⟩
    Superseded t.lc 2 (standingFrame 5 40) ∧ ¬ Superseded s.lc 2 (standingFrame 5 40) := by
  unfold Superseded
  decide +kernel
theorem test_w_transmit_error :
    Pre.onWire (withSlot run 1 ⟨beatFrame 5 8, true, 0⟩) 1 (beatFrame 5 8) 0 ∧
      Pre.speaking (withSlot run 1 ⟨beatFrame 5 8, true, 0⟩) .form ∧
      Pre.onWire (sending 0) 2 (faultFrame 5 3 .open) 0 ∧ Pre.speaking (sending 0) .bit := by
  decide +kernel
theorem test_w_eighth_error :
    Pre.onWire (sending 7) 2 (faultFrame 5 3 .open) 7 ∧ Pre.speaking (sending 7) .ack ∧
      (faultFrame 5 3 .open).kind ≠ 1 ∧ (faultFrame 5 3 .open).kind ≠ 2 ∧
      (let s := withSlot run 2 ⟨⟨0, 1, 5, [1]⟩, true, 7⟩
      Pre.onWire s 2 ⟨0, 1, 5, [1]⟩ 7 ∧ Pre.speaking s .ack ∧ s.sl.station = .run ∧ Assigned [1] 1 ∧
        Pre.number s.own 5) := by decide +kernel
/-- An error of slot i brings a station near SILENT to it. -/
def nearSilent (s : State) (st : LinkState) (tec : Nat) : State :=
  { s with lc.state := st, lc.TEC := tec }

/-- A TILT of this station. -/
def tiltFrame : Frame := ⟨0, 1, 5, [1]⟩

/-- An acknowledge error in PASSIVE leaves TEC and the link state, at TEC 184 to 191 too (R155). -/
theorem test_w_passive_ack :
    let p (s : State) := nearSilent s .passive 191
    Pre.speaking (p (sending 7)) .ack ∧ Pre.onWire (p (sending 7)) 2 (faultFrame 5 3 .open) 7 ∧
      Pre.speaking (p (sending 0)) .ack ∧ Pre.speaking (p claiming) .ack ∧
      Pre.ownClaim (p claiming) claimFrame3 0 claim3 ∧ ¬ Pre.speaking (p (sending 0)) .bit ∧
      tecAfter (p (sending 0)).lc .ack = 191 := by decide +kernel
theorem test_w_silencing :
    Pre.silencing (nearSilent (sending 0) .passive 184) 2 (faultFrame 5 3 .open) 0 .bit ∧
      playsHeld (sending 0).lc = [] ∧
      Pre.silencing (nearSilent claiming .active 184) 0 claimFrame3 0 .ack ∧
      Pre.silencing (nearSilent (withSlot run 1 ⟨beatFrame 5 8, true, 0⟩) .active 184) 1
        (beatFrame 5 8) 0 .stuff := by
  refine ⟨⟨?_, ?_, ?_⟩, ?_, ⟨?_, ?_, ?_⟩, ?_, ?_, ?_⟩ <;> decide +kernel
theorem test_w_silencing_plays :
    let s := nearSilent (withSlot (withSlot run 2 ⟨tiltFrame, true, 7⟩) 3 ⟨⟨0, 2, 5, [1]⟩, false, 0⟩)
      .active 184
    Pre.silencing s 2 tiltFrame 7 .ack ∧ playsHeld s.lc = [(1, 1), (2, 1)] ∧ s.sl.station = .run ∧
      Pre.number s.own 5 := by
  refine ⟨⟨?_, ?_, ?_⟩, ?_, ?_, ?_⟩ <;> decide +kernel
/-- A STOP pattern under way at the entry to SILENT is driven no further (R156, R157, log 39). -/
theorem test_silent_drives_no_stop :
    ∃ t, exec (.transmitError .bit 19990)
        { nearSilent (sending 0) .passive 184 with lc.stopLeft := 20 } = .next t ∧
      t.lc.state = .silent ∧ driveLevel t = true := ⟨_, rfl, by decide +kernel⟩
theorem test_w_receive_error : run.canReceive = true ∧ silent.lc.state = .silent := by decide +kernel
theorem test_w_stop :
    run.lc.started = true ∧ run.sl.station = .run ∧
      ({ run with sl.station := .joining } : State).sl.station = .joining ∧
      ({ run with sl.station := .unconfigured } : State).sl.station = .unconfigured ∧
      run.lc.slots.get 0 = none := by decide +kernel
theorem test_w_stop_read :
    (∀ (i : Fin 4), 2 ≤ i.val → ∀ sl ∈ run.lc.slots.get i, sl.onWire = false) ∧
      (sending 0).lc.slots.get 2 = some ⟨faultFrame 5 3 .open, true, 0⟩ ∧
      (∀ (j : Fin 4), j ≠ 2 → ∀ sl ∈ (sending 0).lc.slots.get j, sl.onWire = false) ∧
      ¬ EndedBefore (sending 0).lc ∧
      EndedBefore { (sending 0).lc with err := some ⟨.ack, true, 19990, true⟩ } := by
  unfold EndedBefore
  decide +kernel
theorem test_w_claim_cut :
    ClaimCut claiming.lc ∧
      ¬ ClaimCut { claiming.lc with err := some ⟨.ack, true, 19990, true⟩ } := by
  unfold ClaimCut EndedBefore
  decide +kernel
theorem test_w_integrating :
    let s := { run with lc.phase := .integrating }
    s.lc.started = true ∧ s.lc.phase = .integrating := by decide +kernel

/-! The link bit by bit -/

theorem test_w_last_stop_bit :
    Pre.lastStopBit { run with
      lc.domRun := 23, lines.linkIn := [⟨true, false⟩], bitDue := true } := by decide +kernel
theorem test_w_last_own_stop_bit :
    Pre.lastStopBit { run with lc.domRun := 23, lc.stopLeft := 9, bitDue := true } := by
  decide +kernel
theorem test_w_frame_sent :
    (List.replicate 8 (255 : Byte)).length ≤ 8 ∧ frameBegun.lc.started = true ∧
      frameBegun.lc.overriding = false ∧ frameBegun.lc.phase = .frame ∧
      frameBegun.lc.ownFrame = some (faultFrame 5 3 .open) ∧
      ∃ p, frameBegun.lc.rx = some p ∧ p.transmitting = true :=
  ⟨by decide, by decide +kernel, by decide +kernel, by decide +kernel, by decide +kernel, _, rfl,
    rfl⟩

/-- A frame of this station or of another, at a place after the check. -/
def atTail (transmitting : Bool) (k : Nat) (checkBad : Bool) : Progress :=
  ⟨transmitting, 19950, 90, 8, [false], false, 1, some k, checkBad⟩

/-- A bit of each finding. -/
theorem test_findings :
    let p : Progress := ⟨true, 20000, 100, 8, [false], false, 1, none, false⟩
    p.bit true false = .lost (p.data false) ∧ p.bit false true = .error .bit ∧
      (atTail false 0 false).bit true true = .badCheck (atTail false 1 true) ∧
      (atTail false 2 true).bit true true = .signal ∧
      (atTail false 9 false).bit true true = .complete ∧
      (atTail false 9 false).bit true false = .error .form ∧
      (atTail true 1 false).bit true true = .error .ack ∧
      ({ p with runLen := 6, transmitting := false } : Progress).bit true false = .error .stuff := by
  decide +kernel
theorem test_w_reading :
    Pre.reading { run with lc.phase := .frame, lc.rx := some (atTail false 0 false) }
        (atTail false 0 false) ∧
      ∃ p, frameBegun.lc.rx = some p ∧ Pre.reading frameBegun p :=
  ⟨by decide +kernel, _, rfl, by decide +kernel⟩
theorem test_w_error_signal :
    let s := { run with lc.phase := .errorSignal, lc.sigLeft := 8 }
    s.lc.started = true ∧ s.lc.overriding = false ∧ s.lc.phase = .errorSignal ∧
      2 ≤ s.lc.sigLeft ∧ ({ s with lc.sigLeft := 1 } : State).lc.sigLeft ≤ 1 ∧
      ({ s with lc.err := some ⟨.form, false, 19990, false⟩ } : State).lc.err =
        some ⟨.form, false, 19990, false⟩ := by decide +kernel
theorem test_w_bus_phases :
    ({ run with lc.phase := .errorDelimiter } : State).lc.phase = .errorDelimiter ∧
      run.lc.phase = .interframe ∧
      (let s := { run with lc.phase := .idle }
      s.lc.phase = .idle ∧ ∀ (i : Fin 4), ∀ sl ∈ s.lc.slots.get i, sl.onWire = true) ∧
      ({ run with lc.phase := .stop } : State).lc.phase = .stop := by decide +kernel
theorem test_w_silent_drives :
    let s := { silent with lc.phase := .errorSignal, lc.sigLeft := 8 }
    s.lc.state = .silent ∧ s.lc.overriding = false ∧ s.lc.rx = none ∧ s.lc.sigLeft = 8 := by
  decide +kernel
theorem test_w_driven :
    let receiving (k : Nat) (bad : Bool) : State :=
      { run with lc.phase := .frame, lc.rx := some (atTail false k bad) }
    driveLevel { run with lc.stopLeft := 1 } = false ∧
      driveLevel { run with lc.resetLeft := 1, lc.started := false } = false ∧
      (receiving 1 false).lc.started = true ∧ (receiving 1 false).lc.overriding = false ∧
      driveLevel (receiving 1 false) = false ∧ driveLevel (receiving 1 true) = true ∧
      driveLevel (receiving 2 false) = true ∧
      driveLevel { receiving 1 false with lc.state := .silent } = true ∧
      State.reset.lc.overriding = false ∧ State.reset.lc.started = false := by decide +kernel

/-- The last bit of an own STOP pattern brings STOP_PATTERN_END and lowers both counts (R144, R146). -/
theorem test_last_bit_driven :
    let s := linkBit { run with lc.stopLeft := 1, lc.resetLeft := 8, bitDue := true }
    s.pending = [.stopPatternEnd] ∧ s.lc.stopLeft = 0 ∧ s.lc.resetLeft = 7 ∧ s.bitDue = false := by
  decide +kernel
theorem test_w_recovery :
    run.lc.state ≠ .silent ∧ silent.lc.state = .silent ∧ silent.lc.partialRun < 11 ∧
      (let s := { silent with lc.partialRun := 11, lc.recovery := 63 }
      s.lc.state = .silent ∧ s.lc.partialRun = 11 ∧ s.lc.recovery ≤ 63) := by decide +kernel

/-! Lamps and the beat -/

theorem test_w_window : Pre.window { run with falling := [.window 15] } 15 := by decide +kernel
theorem test_w_beat_zero : Pre.beatZero { run with falling := [.beatZero 8] } 8 := by decide +kernel
theorem test_w_beat_withdraw :
    let s := withSlot run 1 ⟨beatFrame 5 8, false, 0⟩
    s.lc.slots.get 1 = some ⟨beatFrame 5 8, false, 0⟩ ∧ 4 ≤ s.lp.phase ∧
      pByte (beatFrame 5 8).payload 1 ≠ ({ s with lp.beat := 9 } : State).lp.beat.toNat := by
  decide +kernel
theorem test_w_beat : Pre.beat run ⟨0, 2, [9]⟩ 9 [] := by decide +kernel
theorem test_w_beat_no_effect :
    (⟨0, 2, []⟩ : Heard).payload = [] ∧ run.canReceive = true ∧
      (let s := { run with sl.station := .unconfigured }
      s.canReceive = true ∧ s.viewing = false) := by decide +kernel
theorem test_w_beat_wraps :
    (160 : Nat) < (319 : Fin 320).val ∧
      319 < ({ run with lp.phase := 319 } : State).lp.phase +
        min (320 - (319 : Fin 320).val) run.cfg.station.resync ∧
      run.lp.phase + min (320 - (161 : Fin 320).val) run.cfg.station.resync ≤ 319 := by
  decide +kernel

/-! Play state, events and actions -/

theorem test_w_play :
    Pre.play run ⟨0, 2, [1]⟩ 1 5 ∧ Pre.play run ⟨2, 2, [2, 0]⟩ 2 5 ∧ Gated run .tilt 3 := by
  decide +kernel

/-- Filter 2 and 3 of `run`, the others disabled. -/
theorem filters_of_run : ∀ j, run.cfg.filters.get j = .disabled ∨
    j = 2 ∧ run.cfg.filters.get j = .list 5001 7 5002 8 ∨
    j = 3 ∧ run.cfg.filters.get j = .mask 0 1023 9 := by decide +kernel
theorem test_w_event : run.canReceive = true ∧ 3 ≤ ([7, 1, 9] : List Byte).length ∧
    keyOf 4 [7, 1, 9] = 4617 ∧ pByte [7, 2, 9] 2 = 2 := by decide +kernel
theorem test_w_event_unmatched :
    ∀ j a, ¬ listNames 4617 a (run.cfg.filters.get j) ∧ ¬ maskNames 4617 a (run.cfg.filters.get j) := by
  refine fun j a => ⟨?_, ?_⟩
  · rintro ⟨_, _, _, _, h, k⟩
    rcases filters_of_run j with e | ⟨_, e⟩ | ⟨_, e⟩ <;> rw [e] at h <;> cases h
    exact absurd k (by simp)
  · rintro ⟨_, _, h, k⟩
    rcases filters_of_run j with e | ⟨_, e⟩ | ⟨_, e⟩ <;> rw [e] at h <;> cases h
    exact absurd k (by decide)
theorem test_w_event_list :
    listNames 5002 8 (run.cfg.filters.get 2) ∧
      ∀ j : Fin 16, j < 2 → ∀ x, ¬ listNames 5002 x (run.cfg.filters.get j) := by
  refine ⟨⟨5001, 7, 5002, 8, by decide +kernel, .inr ⟨by decide, rfl, rfl⟩⟩, fun j hj x => ?_⟩
  rintro ⟨_, _, _, _, h, _⟩
  rcases filters_of_run j with e | ⟨rfl, e⟩ | ⟨_, e⟩
  · rw [e] at h; cases h
  · exact absurd hj (by decide)
  · rw [e] at h; cases h
theorem test_w_event_mask :
    maskNames 1024 9 (run.cfg.filters.get 3) ∧ (∀ j x, ¬ listNames 1024 x (run.cfg.filters.get j)) ∧
      ∀ j : Fin 16, j < 3 → ∀ x, ¬ maskNames 1024 x (run.cfg.filters.get j) := by
  refine ⟨⟨0, 1023, by decide +kernel, by decide⟩, fun j x => ?_, fun j hj x => ?_⟩
  · rintro ⟨_, _, _, _, h, k⟩
    rcases filters_of_run j with e | ⟨_, e⟩ | ⟨_, e⟩ <;> rw [e] at h <;> cases h
    exact absurd k (by simp)
  · rintro ⟨_, _, h, _⟩
    rcases filters_of_run j with e | ⟨_, e⟩ | ⟨rfl, e⟩
    · rw [e] at h; cases h
    · rw [e] at h; cases h
    · exact absurd hj (by decide)

/-- `run` with both shared slots and the outgoing queue full. -/
def crowded : State := { sending 0 with lc.outq := List.replicate 8 (noPageFrame 5 31) }

theorem test_w_same_work :
    Pre.takes run .fire (command []) (.coil 3 (.fire none)) ∧
      SameWork (.fire 3) (.coil 3 (.fire none)) ∧
      Pre.takes run .train count13Frame (.coil 3 (.train count13)) ∧
      SameWork (.train 3 count13) (.coil 3 (.train count13)) :=
  ⟨by decide +kernel, rfl, by decide +kernel, rfl⟩
theorem test_w_play_action :
    playOf .raiseTilt = some (1, 1) ∧ run.lc.state ≠ .silent ∧ ¬ Pre.full run.lc ∧
      run.lc.slots.get 2 = none ∧ (sendingFrame (standingFrame 5 40)).lc.slots.get 2 ≠ none ∧
      (sendingFrame (standingFrame 5 40)).lc.slots.get 3 = none ∧
      (sending 0).lc.slots.get 3 ≠ none ∧ ¬ Pre.full (sending 0).lc ∧ Pre.full crowded.lc ∧
      crowded.sl.station = .run ∧ Pre.number crowded.own 5 ∧ silent.lc.state = .silent ∧
      silent.sl.station = .run := by decide +kernel

/-! Switches and flippers -/

theorem test_w_raw : Pre.raw run 10 false ∧ run.lines.sw.get 10 = true := by decide +kernel
theorem test_w_debounce :
    (∀ st ∈ [SwState.closing, .opening, .stuck],
      Pre.debounce (withSwitch run 5 ⟨st, some 20000, none⟩) 5 st 20000) ∧
    Pre.noFlipper run 5 := by decide +kernel
/-- Two rules of one edge and none of the other, none outside RUN; a reset that waits next. -/
theorem test_w_reset_waits :
    let r2 : Rule := ⟨true, 5, true, some 6, none⟩
    let r11 : Rule := ⟨true, 5, true, none, some (17, 3)⟩
    let s := { withSwitch run 5 ⟨.closing, some 20000, none⟩ with
      cfg.rules := (config.rules.set 11 r11).set 2 r2, pending := [.resetLineAssert] }
    Pre.debounce s 5 .closing 20000 ∧ Pre.resetNext s ∧ ¬ Pre.resetNext { s with pending := [] } ∧
      rulesOf s 5 true = [r2, r11] ∧ rulesOf s 5 false = [] ∧
      rulesOf { s with sl.station := .joining } 5 true = [] ∧
      s.edgeRules 5 true = [r2, r11] ∧ s.resetNext = true ∧
      State.resetNext { s with pending := [] } = false :=
  ⟨by decide +kernel, ⟨_, rfl, trivial⟩, fun ⟨_, h, _⟩ => absurd h (by simp), by decide +kernel,
    by decide +kernel, by decide +kernel, by decide +kernel, rfl, rfl⟩
theorem test_w_press :
    let s := withSwitch run 10 ⟨.closing, some 20000, none⟩
    Pre.debounce s 10 .closing 20000 ∧ Pre.button s 10 0 ∧ Pre.press s 0 ∧
      ¬ Pre.press { s with pc.state := .tilt } 0 := by decide +kernel
theorem test_w_button_open :
    let s := withSwitch run 10 ⟨.opening, some 20000, none⟩
    Pre.debounce s 10 .opening 20000 ∧ Pre.button s 10 0 := by decide +kernel
theorem test_w_eos_close :
    let s := withSwitch (withFlipper fun r => { r with state := .power, windowEnd := 20000 }) 11
      ⟨.closing, some 20000, none⟩
    Pre.debounce s 11 .closing 20000 ∧ Pre.eos s 11 0 ∧ Pre.windowOver s 0 ∧
      ¬ Pre.windowOver { s with tick := 19999 } 0 := by decide +kernel
theorem test_w_repower :
    let s := withSwitch (withFlipper fun r => { r with state := .hold, repowers := 1 }) 11
      ⟨.opening, some 20000, none⟩
    Pre.debounce s 11 .opening 20000 ∧ Pre.eos s 11 0 ∧ Pre.repower s 0 ∧
      (let t := withSwitch (withFlipper fun r => { r with timed := true }) 11
        ⟨.opening, some 20000, none⟩
      Pre.debounce t 11 .opening 20000 ∧ Pre.eos t 11 0 ∧ (t.fl.get 0).timed = true) := by
  decide +kernel
theorem test_w_stuck :
    Pre.stuck (withSwitch run 5 ⟨.closed, none, some 20000⟩) 5 20000 ∧
      Pre.stuck (withSwitch run 5 ⟨.opening, some 20009, some 20000⟩) 5 20000 ∧
      (run.sw.sw.get 5).stuckEnd = none ∧
      ({ config.switches.get 5 with stuckCheck := none } : SwitchSettings).stuckCheck = none := by
  decide +kernel
theorem test_w_both_ends :
    Pre.bothEnds (withSwitch run 5 ⟨.opening, some 20000, some 20000⟩) 5 20000 20000 := by
  decide +kernel
theorem test_w_window_end :
    Pre.windowEnd (withSwitch (withFlipper fun r =>
      { r with state := .power, windowEnd := 20000, phaseEnd := 20100 }) 11 ⟨.stuck, none, none⟩)
      0 11 := by decide +kernel
theorem test_w_flipper_end :
    Pre.flipperEnd (withFlipper fun r => { r with state := .power, phaseEnd := 20000 }) 0 .power ∧
      Pre.flipperEnd (withFlipper fun r => { r with state := .repower, phaseEnd := 20000 }) 0
        .repower := by decide +kernel
theorem test_w_hold_limit :
    Pre.holdLimit (withFlipper fun r => { r with state := .hold, limitEnd := some 20000 }) 0 20000 ∧
      Pre.holdLimit (withFlipper fun r => { r with state := .repower, limitEnd := some 19000 }) 0
        19000 := by decide +kernel
theorem test_w_gates :
    run.sl.station = .run ∧ (run.ch 3).state ≠ .flipper ∧ (run.ch 15).state = .flipper ∧
      run.cfg.flipperOf 15 = some 0 ∧
      ({ run with sl.station := .joining } : State).sl.station ≠ .run := by decide +kernel

/-! Resets, start and time -/

theorem test_w_straps : Pre.number 62 62 ∧ Pre.number 0 0 := by decide
theorem test_w_release : State.reset.sl.station = .reset ∧ State.reset.sl.resetLow = true :=
  ⟨rfl, rfl⟩
theorem test_w_reset_while_sending :
    resetBits (sending 0).lc = 8 ∧ (sending 0).lc.stopLeft = 0 ∧
      resetBits { run.lc with sigLeft := 5, sigDominant := true } = 5 ∧
      resetBits run.lc = 0 := by decide +kernel
theorem test_w_joined :
    Pre.joined { run with sl.station := .joining } ∧
      Pre.statusDue { run with sl.station := .unconfigured } := by decide +kernel
theorem test_w_due :
    Due { State.reset with falling := [.supplySlot] } .supplySlot ∧
      State.reset.pending = [] ∧ State.reset.bitDue = false ∧
      ({ State.reset with bitDue := true } : State).bitDue = true :=
  ⟨List.mem_cons_self, rfl, rfl, rfl⟩
/-- In RESET no time of the station's own runs out. -/
theorem test_w_nothing_due (due : Bool) : ∀ c, ¬ Due { State.reset with bitDue := due } c := by
  have off : ∀ n, (State.reset.ch n).state = .off := by decide +kernel
  have rest : ∀ f, (State.reset.fl.get f).state = .rest := by decide +kernel
  intro c h
  cases c
  case powerEnd n => exact absurd (h.1.symm.trans (off n)) (by decide)
  case trainPulseEnd n =>
    obtain ⟨_, h⟩ := h
    exact absurd (h.1.1.symm.trans (off n)) (by decide)
  case maxHoldExpiry n => exact absurd (h.1.symm.trans (off n)) (by decide)
  case coolEnd n => exact absurd (h.1.1.symm.trans (off n)) (by decide)
  case burstCoolEnd n => exact absurd (h.1.1.symm.trans (off n)) (by decide)
  case burstPulseStart n =>
    obtain ⟨_, _, h⟩ := h
    exact absurd (h.1.symm.trans (off n)) (by decide)
  case openCheckRequest n =>
    obtain ⟨_, h⟩ := h
    exact absurd (h.1.symm.trans (off n)) (by decide)
  case flipperWindowEnd f =>
    obtain ⟨_, h⟩ := h
    exact absurd (h.1.1.symm.trans (rest f)) (by decide)
  case flipperPowerEnd f => exact absurd (h.1.symm.trans (rest f)) (by decide)
  case repowerEnd f => exact absurd (h.1.symm.trans (rest f)) (by decide)
  case holdLimitEnd f =>
    obtain ⟨_, h⟩ := h
    rcases h.1 with k | k <;> exact absurd (k.symm.trans (rest f)) (by decide)
  case beatWithdraw =>
    obtain ⟨_, _, k, _⟩ := h
    cases (show (none : Option Slot) = some _ from k)
  case ageingOut i => cases (show false = true from h.1)
  case debounceEnd sw =>
    obtain ⟨_, _, k, _⟩ := h
    cases (show false = true from k)
  case stuckEnd sw =>
    obtain ⟨_, k, _⟩ := h
    cases (show false = true from k)
  case joiningEnd => cases (show StationState.reset = .joining from h.1)
  case unconfiguredStatus => cases (show StationState.reset = .unconfigured from h.1)
  case refreshExpiry =>
    obtain ⟨_, k, _⟩ := h
    cases k
  case guardPassed n =>
    obtain ⟨_, k, _⟩ := h
    cases k
  case waitLimitExpiry n =>
    obtain ⟨_, k, _⟩ := h
    cases k
  case entryExpiry =>
    obtain ⟨_, k, _⟩ := h
    cases k
  case windowStart l => cases h.1
  case supplySlot => cases h
  case heatDecayPass => cases h
  case beatPhaseZero =>
    obtain ⟨_, k⟩ := h
    cases k
  case supplyReadingEnd raw => cases h.1
  case currentConversionEnd raw =>
    obtain ⟨_, _, k, _⟩ := h
    cases k
  all_goals exact h

/-! ### An image that is accepted -/

/-- A number as two bytes of the image. -/
def pair (n : Nat) : List Byte := [byte (n / 256), byte n]

/-- A profile record: the mode and class byte given, the rest as `coil`. -/
def profileBytes (first : Byte) : List Byte :=
  first :: (pair 44 ++ [4] ++ pair 50 ++ pair 100 ++ pair 46 ++ pair 400 ++ [20] ++ pair 30 ++
    pair 10 ++ pair 3000 ++ [0])

/-- The first 991 bytes: the header and settings, 14 coils, two flipper windings, flipper 0, the
switches, and nothing in use after them. -/
def imageBody : List Byte :=
  [1] ++ pair 993 ++ [3] ++ pair 6000 ++ pair 1500 ++ pair 1500 ++ pair 430 ++ pair 300 ++
    [0, 4] ++ pair 40 ++ [4] ++
    (List.replicate 14 (profileBytes 102)).flatten ++ profileBytes 3 ++ profileBytes 3 ++
    ([138, 11, 14, 15] ++ pair 400 ++ pair 100 ++ pair 200 ++ [36] ++ pair 1000) ++
    List.replicate 39 0 ++ (List.replicate 24 [0, 3, 5, 0, 100]).flatten ++
    List.replicate 464 0 ++ List.replicate 16 15

/-- The whole image, with its sum. -/
def image : List Byte :=
  imageBody ++ pair (imageBody.foldl (fun n b => n + b.toNat) 0)

theorem test_image_has_993_bytes : image.length = 993 := by decide +kernel
theorem test_w_image : Pre.accepted { run with sl.station := .loading } image := by decide +kernel
theorem test_image_settings :
    (readSettings image).station = config.station ∧
      (readSettings image).profiles.get 3 = { coil with depth := 1 } ∧
      (readSettings image).flippers.get 0 = flipper0 := by decide +kernel
theorem test_w_image_refused :
    Pre.refusedImage { run with sl.station := .loading } [] .format ∧
      Pre.refusedImage { run with sl.station := .loading } (image.set 992 0) .sum := by
  decide +kernel

/-- `image` with a field of 1 to 8 at 0, its sum kept. -/
def badField : List Byte := (image.set 15 0).set 5 116

/-- The sum of an image, taken along the list. -/
theorem sumOf_take (im : List Byte) (h : im.length = 993) :
    sumOf im = ((im.take 991).map (·.toNat)).sum % 65536 := by
  have : (List.range 991).map (imageByte im) = (im.take 991).map (·.toNat) := by
    refine List.ext_getElem (by simp [h]) fun k hk _ => ?_
    have hk' : k < im.length := by simp at hk; omega
    simp [imageByte, List.getD, hk']
  unfold sumOf
  rw [this]
theorem test_w_image_checks :
    (image.set 0 2).length = 993 ∧ imageByte (image.set 0 2) 0 ≠ 1 ∧ imageByte image 0 = 1 ∧
      imageWord image 1 = 993 ∧ sumOf image = imageWord image 991 ∧
      sumOf (image.set 992 0) ≠ imageWord (image.set 992 0) 991 ∧ badField.length = 993 ∧
      imageByte badField 0 = 1 ∧ imageWord badField 1 = 993 ∧
      sumOf badField = imageWord badField 991 := by
  rw [sumOf_take image (by decide +kernel), sumOf_take (image.set 992 0) (by decide +kernel),
    sumOf_take badField (by decide +kernel)]
  decide +kernel
theorem test_w_bad_field :
    ¬ FieldsHold badField ∧ Pre.refusedImage { run with sl.station := .loading } badField .field :=
  ⟨fun h => absurd h.1.2.2.2.2.2.2.1.1 (by decide +kernel), by decide +kernel⟩

/-- Flippers 1 to 3 of `image` are not in use. -/
theorem image_flippers : ∀ i : Nat, i < 4 → i ≠ 0 → ¬ ImageBit image (339 + 13 * i) 7 := by
  decide +kernel
theorem test_w_fields_hold : FieldsHold image := by
  refine ⟨?_, ?_, ?_, ?_, ?_, ?_, ?_, ?_, ?_⟩
  · unfold StationHolds
    decide +kernel
  · unfold ProfileHolds
    decide +kernel
  · intro i hi h
    obtain rfl : i = 0 := Classical.byContradiction fun h0 => image_flippers i hi h0 h
    refine ⟨?_, ?_, ?_, ?_, ?_, ?_, ?_, ?_, ?_⟩ <;> decide +kernel
  · rintro i j n hi hj hij ⟨h, k⟩
    by_cases h0 : i = 0
    · exact image_flippers j hj (fun e => hij (h0.trans e.symm)) k.1
    · exact image_flippers i hi h0 h.1
  · intro n hn hm
    refine ⟨0, by decide, by decide +kernel, ?_⟩
    revert n
    decide +kernel
  · decide +kernel
  · unfold RuleHolds
    decide +kernel
  · unfold FilterHolds
    decide +kernel
  · unfold ActionHolds
    decide +kernel

end Sys2Proof.Tests
end

section
/-! The pulse arithmetic of sections 2.4 and 2.5: one lemma per row of R40's table, the bounds of the stretched
power time, and the draw of R38 (O26). -/

namespace Sys2Proof.Proofs
open Sys2Proof.Machine

/-! ### Division rounded up (R2) -/

/-- The rounding up never falls below a whole number whose product with the divisor fits. -/
theorem le_ceilDiv {a c d : Nat} (hd : 0 < d) (h : c * d ≤ a) : c ≤ ceilDiv a d := by
  unfold ceilDiv
  rw [Nat.le_div_iff_mul_le hd]
  omega

/-! ### The rows of R40 -/

/-- The clamp of R40 does not take a base in the range of Table 1-6 below itself. -/
theorem base_le_clamp {b : Nat} (hb : b ≤ 2000) : b ≤ min (2 * b) 2000 := by omega

/-- R40, first row: no sag, and the clamp leaves the base as it is. -/
theorem stretch_of_no_sag {b vnom v : Nat} (hb : b ≤ 2000) (hv : vnom ≤ v) : stretch b vnom v = b := by
  simp only [stretch, if_pos hv, Nat.min_eq_left (base_le_clamp hb)]

/-- R40, second row: half the nominal rail or less (V = 0 too) doubles the base, up to the clamp. -/
theorem stretch_of_half_rail {b vnom v : Nat} (hn : 0 < vnom) (hv : 2 * v ≤ vnom) :
    stretch b vnom v = min (2 * b) 2000 := by
  have hsag : ¬ vnom ≤ v := by omega
  simp only [stretch, if_neg hsag, if_pos hv]
  omega

/-- R40, third row: between the two the base grows as the nominal rail over the reading, rounded up. -/
theorem stretch_of_sag {b vnom v : Nat} (hlow : vnom < 2 * v) (hsag : v < vnom) :
    stretch b vnom v = min (ceilDiv (b * vnom) v) (min (2 * b) 2000) := by
  simp only [stretch, if_neg (Nat.not_le.mpr hsag), if_neg (Nat.not_le.mpr hlow)]

/-! ### The bounds of R40 -/

/-- The upper bound is the clamp itself, whatever the reading. -/
theorem stretch_le_clamp (b vnom v : Nat) : stretch b vnom v ≤ min (2 * b) 2000 :=
  Nat.min_le_right _ _

/-- The lower bound, row by row: in the third row because the nominal rail exceeds the reading. -/
theorem base_le_stretch {b vnom v : Nat} (hb : b ≤ 2000) (hn : 0 < vnom) : b ≤ stretch b vnom v := by
  by_cases hfull : vnom ≤ v
  · exact Nat.le_of_eq (stretch_of_no_sag hb hfull).symm
  by_cases hhalf : 2 * v ≤ vnom
  · rw [stretch_of_half_rail hn hhalf]
    exact base_le_clamp hb
  · have hsag : v < vnom := Nat.lt_of_not_le hfull
    rw [stretch_of_sag (Nat.lt_of_not_le hhalf) hsag]
    have hrow : b ≤ ceilDiv (b * vnom) v :=
      le_ceilDiv (by omega) (Nat.mul_le_mul_left b (Nat.le_of_lt hsag))
    exact Nat.le_min.mpr ⟨hrow, base_le_clamp hb⟩

/-- Settles O26: the three rows of R40 and its two bounds, each by its own lemma; the draw of R38 is
the model's definition with the division rounded up written out. -/
theorem stretchAndDrawFollowTheirRules : Obligations.StretchAndDrawFollowTheirRules := by
  refine ⟨fun b vnom v _ hb hn => ⟨?noSag, ?halfRail, ?sag, ?lower, ?upper⟩, ?draw⟩
  case noSag => exact stretch_of_no_sag hb
  case halfRail => exact stretch_of_half_rail hn
  case sag => exact stretch_of_sag
  case lower => exact base_le_stretch hb hn
  case upper => exact stretch_le_clamp b vnom v
  case draw =>
    intro res vnom v _
    rfl

end Sys2Proof.Proofs
end

section
/-! The stuck switch of R105: the model's edge tied to `EdgeMade`, one equation for each end a switch can reach,
and the two orders in which a switch in OPENING takes both ends (O53). -/

namespace Sys2Proof.Proofs
open Sys2Proof.Machine

/-! ### The rules of an edge (R109–R111) -/

/-- A bank's list is its records in the order of their numbers. -/
theorem items_eq_map_get {α : Type} {n : Nat} (b : Bank α n) : b.items = (List.finRange n).map b.get :=
  List.ext_getElem (by simp [b.len]) fun i _ _ => by simp [Bank.get]

theorem edgeRules_eq_rulesOf (s : State) (sw : Sw) (close : Bool) :
    s.edgeRules sw close = rulesOf s sw close := by
  unfold State.edgeRules rulesOf
  rw [items_eq_map_get]
  simp [Rule.matches_, Bool.and_assoc]

theorem applyRule_eq_ruleApplied (s : State) (r : Rule) (sw : Sw) (close : Bool) :
    applyRule s r sw close = ruleApplied s r sw close := by
  unfold applyRule ruleApplied
  cases r.action <;> cases r.event <;> rfl

/-- The first rules of an edge, as the model folds them. -/
theorem foldl_edgeRules_take (s : State) (sw : Sw) (close : Bool) (n : Nat) :
    ((s.edgeRules sw close).take n).foldl (fun s r => applyRule s r sw close) s =
      firstRulesApplied s sw close n := by
  simp only [firstRulesApplied, edgeRules_eq_rulesOf, applyRule_eq_ruleApplied]

theorem applyRules_eq_rulesApplied (s : State) (sw : Sw) (close : Bool) :
    applyRules s sw close = rulesApplied s sw close := by
  simp only [applyRules, rulesApplied, edgeRules_eq_rulesOf, applyRule_eq_ruleApplied]

/-! ### Every edge is made: taken whole, or cut by the reset that waits next (R107, R112) -/

theorem pre_resetNext_of_resetNext {s : State} (h : s.resetNext = true) : Pre.resetNext s := by
  unfold State.resetNext at h
  split at h
  next hc => exact ⟨_, hc, trivial⟩
  next hc => exact ⟨_, hc, trivial⟩
  next => exact absurd h Bool.false_ne_true

theorem edgeTaken_of_no_reset {s : State} (h : s.resetNext = false) (sw : Sw) (close : Bool) :
    EdgeTaken s (edge s sw close) sw close := by
  simp only [EdgeTaken, ← applyRules_eq_rulesApplied]
  exact edge_of_no_reset h sw close

theorem edgeTaken_of_no_rule {s : State} {sw : Sw} {close : Bool} (h : s.edgeRules sw close = []) :
    EdgeTaken s (edge s sw close) sw close := by
  have none_applied : applyRules s sw close = s := by rw [applyRules, h]; rfl
  refine ⟨s.picks, .inl ?_⟩
  rw [← applyRules_eq_rulesApplied, edge_of_no_rule h]
  exact congrArg (flippersLevel · sw close) none_applied.symm

/-- A cut that comes after all the rules and the flippers leaves the edge whole. -/
theorem cutEdge_made (s : State) (sw : Sw) (close : Bool) :
    EdgeTaken s (cutEdge s sw close) sw close ∨ EdgeCut s (cutEdge s sw close) sw close := by
  obtain ⟨p, n, rulesOnly | flippersFirst | whole⟩ := cutEdge_cases s sw close
  · exact .inr ⟨p, n, .inl (rulesOnly.trans (foldl_edgeRules_take _ sw close n))⟩
  · exact .inr ⟨p, n, .inr (flippersFirst.trans (foldl_edgeRules_take _ sw close n))⟩
  · exact .inl ⟨p, .inl (applyRules_eq_rulesApplied _ sw close ▸ whole)⟩

theorem edge_made (s : State) (sw : Sw) (close : Bool) : EdgeMade s (edge s sw close) sw close := by
  by_cases hreset : s.resetNext = true
  · by_cases hrules : s.edgeRules sw close = []
    · exact .inl (edgeTaken_of_no_rule hrules)
    · have hcut : edge s sw close = cutEdge s sw close := by simp [edge, hreset, hrules]
      rw [hcut]
      exact (cutEdge_made s sw close).imp_right (⟨pre_resetNext_of_resetNext hreset, ·⟩)
  · exact .inl (edgeTaken_of_no_reset (Bool.eq_false_iff.mpr hreset) sw close)

/-! ### The ends of a switch -/

theorem exec_stuckEnd_eq (sw : Sw) (s : State) : exec (.stuckEnd sw) s = execStuckEnd sw s := by
  rfl

theorem exec_debounceEnd_eq (sw : Sw) (s : State) : exec (.debounceEnd sw) s = execDebounceEnd sw s := by
  rfl

theorem stuckDue_of {s : State} {sw : Sw} {due : Tick} (h : Pre.stuck s sw due) : s.stuckDue sw = true := by
  obtain ⟨hview, hstate, hend, hreached⟩ := h
  simpa [State.stuckDue, hend, State.scanning, hview, hreached] using hstate

theorem debounceDue_of {s : State} {sw : Sw} {st : SwState} {due : Tick} (h : Pre.debounce s sw st due) :
    s.debounceDue sw = true := by
  obtain ⟨hview, -, hend, hreached⟩ := h
  simp [State.debounceDue, hend, State.scanning, hview, hreached]

/-- STUCK_END takes a switch in CLOSED or OPENING to STUCK (R105). -/
theorem exec_stuckEnd {s : State} {sw : Sw} {due : Tick} (h : Pre.stuck s sw due) :
    exec (.stuckEnd sw) s = .next (stuckState s sw) := by
  have hbump : bump s.sw.stuckCount = min 65535 (s.sw.stuckCount + 1) := rfl
  rw [exec_stuckEnd_eq, execStuckEnd, if_pos (stuckDue_of h)]
  simp only [setSw_sw, hbump]
  rfl

/-- STUCK_END of a switch with no stuck end has no effect. -/
theorem exec_stuckEnd_of_none {s : State} {sw : Sw} (h : (s.sw.sw.get sw).stuckEnd = none) :
    exec (.stuckEnd sw) s = .next s := by
  have hdue : s.stuckDue sw = false := by simp [State.stuckDue, h]
  rw [exec_stuckEnd_eq, execStuckEnd, hdue, if_neg Bool.false_ne_true]

/-- DEBOUNCE_END in OPENING makes an open edge from OPEN, with no stuck end (R103). -/
theorem exec_debounceEnd_opening {s : State} {sw : Sw} {due : Tick} (h : Pre.debounce s sw .opening due) :
    exec (.debounceEnd sw) s = .next (edge (withSw s sw ⟨.open, none, none⟩) sw false) := by
  have hdue := debounceDue_of h
  obtain ⟨-, hstate, -⟩ := h
  simp only [exec_debounceEnd_eq, execDebounceEnd, if_pos hdue, hstate]
  rfl

/-- DEBOUNCE_END in STUCK, the stuck release, is a change of level for the flippers and no edge (R106). -/
theorem exec_debounceEnd_stuck {s : State} {sw : Sw} {due : Tick} (h : Pre.debounce s sw .stuck due) :
    exec (.debounceEnd sw) s =
      .next (flippersLevel (withSw s sw ⟨.open, none, (s.sw.sw.get sw).stuckEnd⟩) sw false) := by
  have hdue := debounceDue_of h
  obtain ⟨-, hstate, -⟩ := h
  simp only [exec_debounceEnd_eq, execDebounceEnd, if_pos hdue, hstate]
  rfl

/-! ### A switch stuck (R105) -/

@[simp] theorem stuckState_get_self (s : State) (sw : Sw) :
    (stuckState s sw).sw.sw.get sw = ⟨.stuck, (s.sw.sw.get sw).debounceEnd, none⟩ :=
  Bank.get_set_self _ _ _

/-- FL sees a stuck switch closed (R73). -/
theorem switchClosed_stuckState (s : State) (sw : Sw) : (stuckState s sw).switchClosed sw = true := by
  rw [State.switchClosed, stuckState_get_self]
  rfl

theorem switchClosed_of_stuck {s : State} {sw : Sw} {due : Tick} (h : Pre.stuck s sw due) :
    s.switchClosed sw = true := by
  obtain ⟨-, hclosed | hopening, -⟩ := h
  · rw [State.switchClosed, hclosed]; rfl
  · rw [State.switchClosed, hopening]; rfl

/-! ### Both ends together (R105) -/

section BothEnds
variable {s : State} {sw : Sw} {due debounce : Tick} (h : Pre.bothEnds s sw due debounce)
include h

theorem pre_stuck_of_bothEnds : Pre.stuck s sw due := by
  obtain ⟨hview, hopening, hend, hreached, -⟩ := h
  exact ⟨hview, .inr hopening, hend, hreached⟩

theorem pre_debounce_of_bothEnds : Pre.debounce s sw .opening debounce := by
  obtain ⟨hview, hopening, -, -, hend, hreached⟩ := h
  exact ⟨hview, hopening, hend, hreached⟩

/-- The open debounce runs on as the stuck release once the stuck end is taken. -/
theorem pre_debounce_stuckState : Pre.debounce (stuckState s sw) sw .stuck debounce := by
  obtain ⟨hview, -, -, -, hend, hreached⟩ := h
  refine ⟨hview, ?_, ?_, hreached⟩
  · rw [stuckState_get_self]
  · rw [stuckState_get_self]; exact hend

end BothEnds

/-- Settles O53: each end's equation, and of both ends together the debounce end first (an edge) and the stuck
end first (STUCK, then the stuck release). -/
theorem stuckEndMakesNoEdge : Obligations.StuckEndMakesNoEdge := by
  refine ⟨?stuck, ?checkOff, fun s sw => exec_stuckEnd_of_none, ?debounceFirst, ?stuckFirst⟩
  case stuck =>
    intro s sw due h
    exact ⟨exec_stuckEnd h, switchClosed_of_stuck h, switchClosed_stuckState s sw⟩
  case checkOff =>
    intro st now hoff
    rw [SwitchSettings.stuckEnd, hoff, Option.map_none]
  case debounceFirst =>
    intro s sw due debounce h
    exact ⟨_, exec_debounceEnd_opening (pre_debounce_of_bothEnds h), edge_made _ sw false⟩
  case stuckFirst =>
    intro s sw due debounce h
    have hrelease := exec_debounceEnd_stuck (pre_debounce_stuckState h)
    rw [stuckState_get_self] at hrelease
    exact ⟨exec_stuckEnd (pre_stuck_of_bothEnds h), hrelease⟩

end Sys2Proof.Proofs
end

section
/-! The beat timer under a heard BEAT: the correction's three rows, the BEAT that a wrapping advance hands to
slot 1, and what BEAT_RECEIVED leaves alone (O46). -/

namespace Sys2Proof.Proofs
open Sys2Proof.Machine

/-! ### The correction of the timer (R127, R128) -/

theorem adoptBeat_eq_adopted (beat sender aligned : BitVec 8) :
    adoptBeat beat sender aligned = adopted beat sender aligned := by
  simp only [adoptBeat, adopted, BitVec.ofNat_toNat, BitVec.setWidth_eq]

theorem advanceWraps_iff {phase p j : Nat} :
    advanceWraps phase p j = true ↔ 160 < p ∧ 319 < phase + min (320 - p) j := by
  simp only [advanceWraps, Bool.and_eq_true, decide_eq_true_eq]

/-- A correction moves the phase and the beat number alone. -/
theorem resync_eq (lp : Lamps) (p : Nat) (sofBeat sender : BitVec 8) (j : Nat) :
    lp.resync p sofBeat sender j =
      { lp with
        phase := (lp.resync p sofBeat sender j).phase, beat := (lp.resync p sofBeat sender j).beat } := by
  unfold Lamps.resync
  dsimp only
  split
  · rfl
  · split <;> rfl

section Rows
variable {p j : Nat} {lp : Lamps} (sofBeat sender : BitVec 8)

/-- A phase in the first half: the own timer is ahead and is retarded (in step at 0: by nothing). -/
theorem resync_of_retard (h : p ≤ 160) :
    lp.resync p sofBeat sender j =
      { lp with phase := lp.phase - min p j, beat := adopted lp.beat sender sofBeat } := by
  simp only [Lamps.resync, alignedBeat, if_pos h, adoptBeat_eq_adopted]

/-- A phase in the second half: the own timer is behind and is advanced, here within the beat. -/
theorem resync_of_advance (h : 160 < p) (hin : lp.phase + min (320 - p) j ≤ 319) :
    lp.resync p sofBeat sender j =
      { lp with
        phase := lp.phase + min (320 - p) j, beat := adopted lp.beat sender (sofBeat + 1) } := by
  have hwrap : ¬ advanceWraps lp.phase p j = true := fun hw =>
    Nat.not_lt.mpr hin (advanceWraps_iff.mp hw).2
  simp only [Lamps.resync, alignedBeat, if_neg (Nat.not_le.mpr h), if_neg hwrap, adoptBeat_eq_adopted]

/-- An advance past 319 ends the beat: the number adopted is counted on by one. -/
theorem resync_of_wrap (h : 160 < p) (hpast : 319 < lp.phase + min (320 - p) j) :
    lp.resync p sofBeat sender j =
      { lp with
        phase := lp.phase + min (320 - p) j - 320
        beat := adopted lp.beat sender (sofBeat + 1) + 1 } := by
  have hwrap : advanceWraps lp.phase p j = true := advanceWraps_iff.mpr ⟨h, hpast⟩
  simp only [Lamps.resync, alignedBeat, if_neg (Nat.not_le.mpr h), if_pos hwrap, adoptBeat_eq_adopted]

end Rows

/-! ### The BEAT at phase 0 (R125) -/

/-- This station announces phase 0 of this beat. -/
abbrev Announces (s : State) (beat : BitVec 8) : Prop :=
  s.cfg.station.beatSender = true ∧ s.sl.station = .run ∧ s.lc.state ≠ .silent ∧ beat.toNat % 8 = 0

/-- A link with this station's BEAT waiting in slot 1. -/
def withBeat (lc : Link) (own : BitVec 6) (beat : BitVec 8) : Link :=
  { lc with slots := lc.slots.set 1 (some ⟨⟨0, 0, own, [beat]⟩, false, 0⟩) }

theorem handBeat_eq (s : State) (beat : BitVec 8) :
    handBeat s beat = { s with lc := if Announces s beat then withBeat s.lc s.own beat else s.lc } := by
  unfold handBeat
  by_cases h : Announces s beat
  · rw [if_pos h, if_pos h]
    rfl
  · rw [if_neg h, if_neg h]

/-! ### A BEAT taken -/

section Taken
variable (s : State) (p : Nat) (sofBeat sender : BitVec 8)

/-- Taking a BEAT corrects the timer and, where that reaches phase 0 of the next beat, announces it. -/
theorem takeBeat_eq :
    takeBeat s p sofBeat sender =
      (let lp := s.lp.resync p sofBeat sender s.cfg.station.resync
      { s with
        lp := lp
        lc := if advanceWraps s.lp.phase p s.cfg.station.resync = true ∧ Announces s lp.beat
          then withBeat s.lc s.own lp.beat else s.lc }) := by
  unfold takeBeat
  dsimp only
  by_cases hwrap : advanceWraps s.lp.phase p s.cfg.station.resync = true
  · simp only [handBeat_eq, hwrap, true_and]
    rfl
  · simp only [hwrap, Bool.false_eq_true, false_and, if_false]

@[simp] theorem takeBeat_lp :
    (takeBeat s p sofBeat sender).lp = s.lp.resync p sofBeat sender s.cfg.station.resync := by
  rw [takeBeat_eq]

theorem takeBeat_lc :
    (takeBeat s p sofBeat sender).lc =
      if advanceWraps s.lp.phase p s.cfg.station.resync = true ∧
          Announces s (takeBeat s p sofBeat sender).lp.beat
      then withBeat s.lc s.own (takeBeat s p sofBeat sender).lp.beat else s.lc := by
  simp only [takeBeat_lp]
  rw [takeBeat_eq]

/-- Phase, beat number and link apart, a BEAT taken leaves the station as it was. -/
theorem takeBeat_frame :
    takeBeat s p sofBeat sender =
      { s with
        lp.phase := (takeBeat s p sofBeat sender).lp.phase
        lp.beat := (takeBeat s p sofBeat sender).lp.beat
        lc := (takeBeat s p sofBeat sender).lc } := by
  rw [takeBeat_lp, ← resync_eq, takeBeat_eq]

end Taken

/-! ### BEAT_RECEIVED (R127) -/

/-- A received frame leaves the transmit slots alone. -/
theorem received_slots (s : State) (src : BitVec 6) : (received s src).lc.slots = s.lc.slots := by
  rw [received_lc]
  rfl

theorem exec_beatReceived_eq (f : Heard) (p : Fin 320) (sofBeat : BitVec 8) (s : State) :
    exec (.beatReceived f p sofBeat) s = execBeatReceived f p sofBeat s := by
  rfl

/-- A BEAT with no byte, or outside JOINING and RUN, is a heard frame (R127, R129). -/
theorem exec_beatReceived_of_unread {s : State} {f : Heard} (p : Fin 320) (sofBeat : BitVec 8)
    (hrx : s.canReceive = true) (h : s.viewing = false ∨ f.payload = []) :
    exec (.beatReceived f p sofBeat) s = .next (heard s f) := by
  rw [exec_beatReceived_eq, execBeatReceived, if_pos hrx]
  cases hbytes : f.payload with
  | nil => rfl
  | cons sender rest =>
    have hview : s.viewing = false := h.resolve_right (by simp [hbytes])
    simp only [received_viewing, hview, Bool.false_eq_true, if_false]

/-- A BEAT with its byte, in JOINING and RUN, is heard and then taken. -/
theorem exec_beatReceived_of_beat {s : State} {f : Heard} {sender : BitVec 8} {rest : List Byte}
    (p : Fin 320) (sofBeat : BitVec 8) (h : Pre.beat s f sender rest) :
    exec (.beatReceived f p sofBeat) s = .next (takeBeat (heard s f) p sofBeat sender) := by
  obtain ⟨hrx, hview, hbytes⟩ := h
  simp only [exec_beatReceived_eq, execBeatReceived, if_pos hrx, hbytes, received_viewing, if_pos hview]

/-- The timer after a heard BEAT is the own one corrected: hearing the frame does not move it. -/
theorem takeBeat_heard_lp (s : State) (f : Heard) (p : Nat) (sofBeat sender : BitVec 8) :
    (takeBeat (heard s f) p sofBeat sender).lp =
      s.lp.resync p sofBeat sender s.cfg.station.resync := by
  rw [takeBeat_lp, received_lp, received_cfg]

/-- The link after a heard BEAT: slot 1 takes the BEAT of a beat that the correction itself begins. -/
theorem takeBeat_heard_lc (s : State) (f : Heard) (p : Nat) (sofBeat sender : BitVec 8) :
    (takeBeat (heard s f) p sofBeat sender).lc =
      (let beat := (takeBeat (heard s f) p sofBeat sender).lp.beat
      if 160 < p ∧ 319 < s.lp.phase + min (320 - p) s.cfg.station.resync ∧
          s.cfg.station.beatSender = true ∧ s.sl.station = .run ∧ (heard s f).lc.state ≠ .silent ∧
          beat.toNat % 8 = 0 then
        { (heard s f).lc with slots := s.lc.slots.set 1 (some ⟨⟨0, 0, s.own, [beat]⟩, false, 0⟩) }
      else (heard s f).lc) := by
  rw [takeBeat_lc]
  simp only [withBeat, Announces, advanceWraps_iff, and_assoc, received_lp, received_cfg, received_sl,
    received_own, received_slots]

/-- Settles O46: a BEAT that is not read is a heard frame; one that is read is taken by `takeBeat`, whose
frame, link and three rows of the correction are each a lemma. -/
theorem heardBeatCorrectsTheTimer : Obligations.HeardBeatCorrectsTheTimer := by
  refine ⟨fun s f p sofBeat => exec_beatReceived_of_unread p sofBeat, ?taken⟩
  intro s f p sofBeat sender rest h
  refine ⟨_, exec_beatReceived_of_beat p sofBeat h, takeBeat_frame _ _ _ _,
    takeBeat_heard_lc s f p sofBeat sender, ?_⟩
  rw [takeBeat_heard_lp]
  refine ⟨fun hp => ?retard, fun hp hin => ?advance, fun hp hpast => ?wrap⟩
  case retard =>
    rw [resync_of_retard sofBeat sender hp]
    exact ⟨rfl, rfl⟩
  case advance =>
    rw [resync_of_advance sofBeat sender hp hin]
    exact ⟨rfl, rfl⟩
  case wrap =>
    rw [resync_of_wrap sofBeat sender hp hpast]
    exact ⟨rfl, rfl⟩

end Sys2Proof.Proofs
end

section
/-! The statements' own words tied to the model's shared operations: one equation for each word (the queue, the
claim, COOL, HOLD, FAULT, the own standing draw), and what a command frame that is taken comes to. -/

namespace Sys2Proof.Proofs
open Sys2Proof.Machine

/-! ### Classes and requests (R4, R161–R163) -/

theorem classDisabled_iff (p : PlayState) (cls : Nat) : classDisabled p cls = true ↔ ClassOff p cls := by
  cases p <;> simp [classDisabled, ClassOff]

theorem open_iff (s : State) (cls : Nat) :
    s.open_ cls = true ↔ s.pc.stopped = false ∧ ¬ ClassOff s.pc.state cls := by
  simp only [State.open_, Bool.and_eq_true, Bool.not_eq_true', ← Bool.not_eq_true, classDisabled_iff]

/-- Every command frame is one row of `commandReceived`. -/
theorem exec_commandRow (k : CommandKind) (f : Heard) (s : State) :
    exec (commandRow k f) s = .next (commandReceived s k f) := by
  cases k <;> rfl

/-- A well-formed command, addressed here in RUN, is heard and handed to its owner. -/
theorem exec_of_takes {s : State} {k : CommandKind} {f : Heard} {c : Command} (h : Pre.takes s k f c) :
    exec (commandRow k f) s = .next (runCommand (heard s f) c) := by
  obtain ⟨hrx, hrun, haddr, hread⟩ := h
  rw [exec_commandRow, commandReceived_of hrx hrun haddr hread]

/-- A coil request of an enabled class is heard and taken by CS. -/
theorem exec_of_coil {s : State} {k : CommandKind} {f : Heard} {n : Out} {r : Request}
    (h : Pre.coil s k f n r) : exec (commandRow k f) s = .next (takeRequest (heard s f) n r) := by
  obtain ⟨⟨hrx, hrun, haddr, hread⟩, hopen⟩ := h
  rw [exec_commandRow, commandReceived_coil hrx hrun haddr hread ((open_iff s _).mpr hopen)]

/-! ### Counts and channels -/

theorem busyDropped_eq (s : State) : s.busyDropped = busyCounted s := rfl

theorem setCh_eq_withChan (s : State) (n : Out) (c : Channel) : s.setCh n c = withChan s n c := rfl

/-- A channel changed is the channel replaced by what it becomes. -/
theorem updCh_eq_withChan (s : State) (n : Out) (g : Channel → Channel) :
    s.updCh n g = withChan s n (g (s.ch n)) := rfl

@[simp] theorem withChan_ch_self (s : State) (n : Out) (c : Channel) : (withChan s n c).ch n = c :=
  setCh_ch_self s n c

@[simp] theorem withChan_prof (s : State) (n m : Out) (c : Channel) :
    (withChan s n c).prof m = s.prof m := rfl

@[simp] theorem withChan_withChan (s : State) (n : Out) (c d : Channel) :
    withChan (withChan s n c) n d = withChan s n d := by
  simp only [withChan, Bank.set_set]

/-! ### The pending queue (R9, R63) -/

theorem enqueue_eq (s : State) (n : Out) (burst : Bool) (o : Option Nat) :
    enqueue s n burst o = select (queuedWith s n burst o) := rfl

theorem withdrawClaim_eq (s : State) (n : Out) : withdrawClaim s n = withdrawnFor s n := by
  unfold withdrawClaim withdrawnFor
  cases s.db.claim with
  | none => rfl
  | some c =>
    cases s.lc.slots.get 0 with
    | none => rfl
    | some sl =>
      obtain ⟨frame, onWire, fails⟩ := sl
      cases onWire <;> rfl

theorem dequeue_eq (s : State) (n : Out) : dequeue s n = unqueued s n := withdrawClaim_eq _ n

theorem unqueued_ch (s : State) (n m : Out) : (unqueued s n).ch m = s.ch m := by
  rw [← dequeue_eq, dequeue_ch]

/-- Taking an entry out of the queue and writing a channel do not meet. -/
theorem unqueued_withChan (s : State) (n m : Out) (c : Channel) :
    unqueued (withChan s m c) n = withChan (unqueued s n) m c := by
  unfold unqueued withdrawnFor withChan
  cases s.db.claim with
  | none => rfl
  | some cl =>
    dsimp only
    split
    · cases s.lc.slots.get 0 with
      | none => rfl
      | some sl =>
        obtain ⟨frame, onWire, fails⟩ := sl
        cases onWire <;> rfl
    · rfl

theorem unqueued_prof (s : State) (n m : Out) : (unqueued s n).prof m = s.prof m := by
  rw [← dequeue_eq]
  exact (coilWork_dequeue s n).prof m

/-! ### The own standing draw (R64, R65) -/

theorem holdSum_eq (s : State) : s.holdSum = holdTotal s := rfl

theorem ownDraw_of_number (s : State) {i : Fin 63} (h : Pre.number s.own i) :
    s.ownDraw = (s.db.standing.get i).draw := by
  rw [State.ownDraw, standingIdx_of h]

theorem setOwnDraw_of_number (s : State) {i : Fin 63} (h : Pre.number s.own i) (d : Nat) :
    s.setOwnDraw d =
      { s with db.standing := s.db.standing.set i { s.db.standing.get i with draw := d } } := by
  rw [State.setOwnDraw, standingIdx_of h]

theorem ownDraw_setOwnDraw (s : State) {i : Fin 63} (h : Pre.number s.own i) (d : Nat) :
    (s.setOwnDraw d).ownDraw = d := by
  have hown : Pre.number (s.setOwnDraw d).own i := by rw [(coilWork_setOwnDraw s d).own]; exact h
  rw [ownDraw_of_number (s.setOwnDraw d) hown, setOwnDraw_of_number s h]
  exact congrArg Standing.draw (Bank.get_set_self _ _ _)

theorem announceStanding_eq (s : State) : announceStanding s = announced s s.ownDraw := rfl

theorem viewDecrease_eq (s : State) : viewDecrease s = decreased s := rfl

theorem updateStanding_eq (s : State) {i : Fin 63} (h : Pre.number s.own i) :
    updateStanding s = restood s i := by
  have hset := setOwnDraw_of_number s h s.holdSum
  have hown := ownDraw_setOwnDraw s h s.holdSum
  unfold updateStanding restood
  rw [announceStanding_eq, hown, hset, ownDraw_of_number s h]
  rfl

/-! ### COOL and HOLD (R17–R19) -/

theorem endTrain_of_train {s : State} {n : Out} {tr : Train} (h : (s.ch n).train = some tr) :
    endTrain s n = trainEnded s n tr := by
  have hoff : toOff (s.updCh n (·.withTrain none)) n = withChan s n (offed { s.ch n with train := none }) := by
    rw [toOff, updCh_updCh]
    rfl
  unfold endTrain trainEnded
  rw [h]
  dsimp only
  rw [hoff]
  cases tr.done <;> rfl

/-- COOL over, without a train: what `coolEnded` says. -/
theorem coolOver_eq {s : State} {n : Out} (h : (s.ch n).train = none) : coolOver s n = coolEnded s n := by
  unfold coolOver coolEnded
  rw [h]
  dsimp only
  by_cases howed : (s.ch n).repeats = 0
  · rw [if_neg (by omega), if_pos howed, toOff, updCh_updCh]
    rfl
  · rw [if_pos (by omega), if_neg howed]
    rfl

/-- COOL over, with a train: what `coolEnded` says. -/
theorem burstCoolOver_eq {s : State} {n : Out} {tr : Train} (h : (s.ch n).train = some tr) :
    burstCoolOver s n tr = coolEnded s n := by
  unfold burstCoolOver coolEnded
  rw [h, endTrain_of_train h]
  rfl

theorem coolIfZero_eq {s : State} {n : Out} (h : (s.ch n).state = .cool) :
    coolIfZero s n = coolIfOver s n := by
  unfold coolIfZero coolIfOver
  by_cases hzero : (s.prof n).cool = 0
  · rw [if_pos ⟨hzero, h⟩, if_pos hzero]
    cases htrain : (s.ch n).train with
    | none => exact coolOver_eq htrain
    | some tr => exact burstCoolOver_eq htrain
  · rw [if_neg (fun hc => hzero hc.1), if_neg hzero]

theorem toCool_eq (s : State) (n : Out) :
    toCool s n = withChan s n (cooled s.tick (s.prof n).cool (s.ch n)) := rfl

theorem coolFrom_eq (s : State) (n : Out) : coolFrom s n = coolEntered s n (s.ch n) := by
  unfold coolFrom coolEntered
  rw [toCool_eq]
  exact coolIfZero_eq (congrArg Channel.state (withChan_ch_self _ _ _))

/-- The output leaves HOLD with no entry in the queue: it is still in COOL when its time is looked at. -/
theorem leaveHold_eq {s : State} {n : Out} {i : Fin 63} (hown : Pre.number s.own i) (hno : NoEntry s n) :
    leaveHold s n =
      coolIfOver (restood (withChan s n (cooled s.tick (s.prof n).cool (s.ch n))) i) n := by
  have hcool : ((updateStanding (toCool s n)).ch n).state = .cool := by
    rw [(updateStanding_alone (toCool s n) n hno).1, toCool_eq, withChan_ch_self]
    rfl
  rw [leaveHold, coolIfZero_eq hcool, updateStanding_eq (toCool s n) hown, toCool_eq]

theorem enterHold_eq {s : State} {n : Out} {i : Fin 63} (hown : Pre.number s.own i) :
    enterHold s n = restood (withChan s n (inHold s n (s.ch n))) i := by
  exact updateStanding_eq (withChan s n (inHold s n (s.ch n))) hown

/-! ### FAULT (R23) -/

theorem toFault_eq {s : State} {n : Out} {i : Fin 63} (hown : Pre.number s.own i) (kind : FaultKind) :
    toFault s n kind = faultTaken s i n kind (byte kind.code) := by
  have hfault : s.updCh n (·.faulted kind) = withChan s n (inFault kind (s.ch n)) := rfl
  have hrest : Pre.number ((dequeue (s.updCh n (·.faulted kind)) n).hand (faultFrame s.own n kind)).own i := by
    have hwork := ((coilWork_updCh s n (·.faulted kind)).trans (coilWork_dequeue _ n)).trans
      (coilWork_hand _ (faultFrame s.own n kind))
    rw [hwork.own]
    exact hown
  rw [toFault, updateStanding_eq _ hrest, dequeue_eq, hfault]
  rfl

end Sys2Proof.Proofs
end

section
/-! What each coil request does by the state of its output (Tables 1-9 and 5.4), for a request that has reached CS:
first on any state, then behind a command frame (O9, O11, O12, O14, O15). -/

namespace Sys2Proof.Proofs
open Sys2Proof.Machine

/-! ### FIRE, HOLD and RELEASE by the output's state -/

theorem fireRequest_of_off {s : State} {n : Out} (h : (s.ch n).state = .off) (o : Option Nat) :
    fireRequest s n o = select (queuedWith s n false o) := by
  simp only [fireRequest, h, enqueue_eq]

/-- FIRE on a busy output owes one pulse more, up to the repeat depth (R7). -/
theorem fireRequest_of_busy {s : State} {n : Out} (h : Pre.busy (s.ch n)) (o : Option Nat) :
    fireRequest s n o =
      if (s.ch n).repeats < (s.prof n).depth then s.updCh n fun c => { c with repeats := c.repeats + 1 }
      else busyCounted (s.updCh n fun c => { c with overflow := true }) := by
  obtain ⟨hq | hp | hh | hc, htrain⟩ := h <;>
    simp only [fireRequest, *, Option.isSome_none, Bool.false_eq_true, if_false] <;> rfl

theorem holdRequest_of_off {s : State} {n : Out} (h : (s.ch n).state = .off) (hend : n ∉ s.powerEnded) :
    holdRequest s n =
      select (queuedWith (withChan s n { s.ch n with holdWanted := true }) n false none) := by
  refine Eq.trans (b := enqueue (s.updCh n (·.want true)) n false none) ?_ rfl
  simp only [holdRequest, h, if_neg hend]

/-- HOLD on a busy output sets hold-wanted, and starts the max hold again in HOLD (R7). -/
theorem holdRequest_of_busy {s : State} {n : Out} (h : Pre.busy (s.ch n))
    (hend : (s.ch n).state = .cool → n ∉ s.powerEnded) :
    holdRequest s n = s.updCh n fun c =>
      if c.state = .hold then
        { c with holdWanted := true, phaseEnd := s.tick + BitVec.ofNat 32 (10 * (s.prof n).maxHold) }
      else { c with holdWanted := true } := by
  obtain ⟨hq | hp | hh | hc, htrain⟩ := h
  · simp only [holdRequest, hq, htrain, Option.isSome_none, Bool.false_eq_true, if_false]
    refine updCh_congr ?_
    simp [hq, Channel.want]
  · simp only [holdRequest, hp, htrain, Option.isSome_none, Bool.false_eq_true, if_false]
    refine updCh_congr ?_
    simp [hp, Channel.want]
  · simp only [holdRequest, hh]
    refine updCh_congr ?_
    simp [hh, after, ms]
  · simp only [holdRequest, hc, htrain, Option.isSome_none, Bool.false_eq_true, if_false, if_neg (hend hc)]
    refine updCh_congr ?_
    simp [hc, Channel.want]

/-- HOLD at the instant POWER ran out leads to HOLD (R16, log 44). -/
theorem holdRequest_at_end {s : State} {n : Out} {i : Fin 63} (hown : Pre.number s.own i)
    (hend : n ∈ s.powerEnded)
    (h : (s.ch n).state = .off ∨ (s.ch n).state = .cool ∧ (s.ch n).train = none) :
    holdRequest s n = restood (withChan s n (inHold s n { s.ch n with holdWanted := true })) i := by
  have hafter : holdAfterPower s n =
      restood (withChan s n (inHold s n { s.ch n with holdWanted := true })) i := by
    have hold := enterHold_eq (s := withChan s n ((s.ch n).want true)) (n := n) hown
    rw [withChan_withChan, withChan_ch_self] at hold
    exact hold
  obtain hoff | ⟨hcool, htrain⟩ := h
  · simp only [holdRequest, hoff, if_pos hend, hafter]
  · simp only [holdRequest, hcool, htrain, if_pos hend, hafter, Option.isSome_none, Bool.false_eq_true,
      if_false]

theorem releaseRequest_of_off {s : State} {n : Out} (h : (s.ch n).state = .off) :
    releaseRequest s n = s := by
  simp only [releaseRequest, h]

/-- RELEASE takes an output out of HOLD (R18, R19). -/
theorem releaseRequest_of_hold {s : State} {n : Out} {i : Fin 63} (h : (s.ch n).state = .hold)
    (hown : Pre.number s.own i) (hno : NoEntry s n) :
    releaseRequest s n = coolIfOver (restood (withChan s n
      (cooled s.tick (s.prof n).cool { s.ch n with holdWanted := false })) i) n := by
  have hleave := leaveHold_eq (s := withChan s n ((s.ch n).want false)) (n := n) hown hno
  rw [withChan_withChan, withChan_ch_self] at hleave
  refine Eq.trans (b := leaveHold (s.updCh n (·.want false)) n) ?_ hleave
  simp only [releaseRequest, h]

/-- RELEASE of an output that CS drives, not in OFF, HOLD or FAULT, clears hold-wanted and no more. -/
theorem releaseRequest_of_active {s : State} {n : Out}
    (h : (s.ch n).state = .queued ∨ (s.ch n).state = .power ∨ (s.ch n).state = .gap ∨
      (s.ch n).state = .cool) :
    releaseRequest s n = s.updCh n fun c => { c with holdWanted := false } := by
  obtain h | h | h | h := h <;> simp only [releaseRequest, h] <;> rfl

/-! ### TRAIN and TRAIN STOP by the output's state -/

theorem trainRequest_of_off {s : State} {n : Out} (h : (s.ch n).state = .off) (req : TrainReq) :
    trainRequest s n req = select (queuedWith (withChan s n { s.ch n with
      train := some (newTrain req (s.prof n).burst) }) n true none) := by
  refine Eq.trans (b := enqueue (s.updCh n
    (·.withTrain (some (Train.start req (s.prof n).burst)))) n true none) ?_ rfl
  simp only [trainRequest, h]

theorem trainRequest_of_inTrain {s : State} {n : Out} {tr : Train} (h : Pre.inTrain (s.ch n) tr)
    (req : TrainReq) : trainRequest s n req = trainAddition s n tr req := by
  obtain ⟨h | h | h | h, htrain⟩ := h <;> simp only [trainRequest, h, htrain]

theorem trainRequest_of_busy {s : State} {n : Out} (h : Pre.busy (s.ch n)) (req : TrainReq) :
    trainRequest s n req = busyCounted s := by
  obtain ⟨h | h | h | h, htrain⟩ := h <;> simp only [trainRequest, h, htrain, busyDropped_eq]

/-- A COUNT train on a running COUNT train adds its pulses, up to 255 (R96). -/
theorem trainAddition_of_count {s : State} {n : Out} {tr : Train} {req : TrainReq} (hreq : req.free = false)
    (hfree : tr.free = false) (hstop : tr.stopRequested = false) :
    trainAddition s n tr req =
      (let t := s.updCh n fun c =>
        { c with train := some { tr with remaining := min 255 (tr.remaining + req.n) } }
      if 255 < tr.remaining + req.n then busyCounted t else t) := by
  simp only [trainAddition, hreq, hfree, hstop, Bool.false_eq_true, or_self, if_false]
  rfl

theorem trainAddition_of_refused {s : State} {n : Out} {tr : Train} {req : TrainReq}
    (h : req.free = true ∨ tr.free = true ∨ tr.stopRequested = true) :
    trainAddition s n tr req = busyCounted s := by
  rw [trainAddition, if_pos h]
  rfl

theorem trainStopRequest_of_train {s : State} {n : Out} {tr : Train} (h : (s.ch n).train = some tr)
    (hfault : (s.ch n).state ≠ .fault) (cancel : Bool) :
    trainStopRequest s n cancel = if cancel then cancelTrain s n else gracefulStop s n tr := by
  unfold trainStopRequest
  dsimp only
  split
  next hstate => exact absurd hstate hfault
  next => rw [h]

theorem trainStopRequest_of_no_train {s : State} {n : Out} (h : (s.ch n).train = none)
    (hfault : (s.ch n).state ≠ .fault) (cancel : Bool) : trainStopRequest s n cancel = s := by
  unfold trainStopRequest
  dsimp only
  split
  next hstate => exact absurd hstate hfault
  next => rw [h]

/-- A train ended on an output whose entry has just left the queue: the channel written before is not seen. -/
theorem trainEnded_withChan (s : State) (n : Out) (c : Channel) (tr : Train)
    (h : { c with train := none } = { s.ch n with train := none }) :
    trainEnded (withChan s n c) n tr = trainEnded s n tr := by
  unfold trainEnded
  rw [withChan_ch_self, h, withChan_withChan]
  rfl

/-- A graceful stop in QUEUED ends the train at once (R97, R99). -/
theorem gracefulStop_of_queued {s : State} {n : Out} {tr : Train} (h : (s.ch n).state = .queued) :
    gracefulStop s n tr = select (trainEnded (unqueued s n) n tr) := by
  simp only [gracefulStop, h]
  rw [dequeue_eq, updCh_eq_withChan, unqueued_withChan,
    endTrain_of_train (tr := { tr with stopRequested := true }) (congrArg Channel.train (withChan_ch_self _ _ _)),
    trainEnded_withChan]
  · rfl
  · rw [unqueued_ch]
    rfl

theorem gracefulStop_of_gap {s : State} {n : Out} {tr : Train} (h : (s.ch n).state = .gap) :
    gracefulStop s n tr =
      coolEntered s n { s.ch n with train := some { tr with stopRequested := true } } := by
  simp only [gracefulStop, h]
  rw [updCh_eq_withChan, coolFrom_eq, withChan_ch_self]
  unfold coolEntered
  rw [withChan_withChan]
  rfl

theorem gracefulStop_of_running {s : State} {n : Out} {tr : Train}
    (h : (s.ch n).state = .power ∨ (s.ch n).state = .cool) :
    gracefulStop s n tr = s.updCh n fun c => { c with train := some { tr with stopRequested := true } } := by
  obtain h | h := h <;> simp only [gracefulStop, h] <;> rfl

theorem cancelTrain_of_queued {s : State} {n : Out} (h : (s.ch n).state = .queued) :
    cancelTrain s n = select (withChan (unqueued s n) n (offed { s.ch n with train := none })) := by
  simp only [cancelTrain, h]
  rw [dequeue_eq, updCh_eq_withChan, unqueued_withChan, toOff, updCh_eq_withChan, withChan_withChan,
    withChan_ch_self]
  rfl

theorem cancelTrain_of_pulsing {s : State} {n : Out}
    (h : (s.ch n).state = .power ∨ (s.ch n).state = .gap) :
    cancelTrain s n = coolEntered s n { s.ch n with train := none } := by
  have hcut : coolFrom (s.updCh n (·.withTrain none)) n = coolEntered s n { s.ch n with train := none } := by
    rw [updCh_eq_withChan, coolFrom_eq, withChan_ch_self]
    unfold coolEntered
    rw [withChan_withChan]
    rfl
  obtain h | h := h <;> simp only [cancelTrain, h, hcut]

theorem cancelTrain_of_cool {s : State} {n : Out} (h : (s.ch n).state = .cool) :
    cancelTrain s n = s.updCh n fun c => { c with train := none } := by
  simp only [cancelTrain, h]
  rfl

/-! ### FAULT (R8) -/

/-- Every request on an output in FAULT is a busy-drop. -/
theorem takeRequest_of_fault {s : State} {n : Out} (h : (s.ch n).state = .fault) (r : Request) :
    takeRequest s n r = busyCounted s := by
  cases r with
  | fire o => simp only [takeRequest, fireRequest, h, busyDropped_eq]
  | hold => simp only [takeRequest, holdRequest, h, busyDropped_eq]
  | release => simp only [takeRequest, releaseRequest, h, busyDropped_eq]
  | train req => simp only [takeRequest, trainRequest, h, busyDropped_eq]
  | trainStop cancel => simp only [takeRequest, trainStopRequest, h, busyDropped_eq]

/-- FIRE and HOLD on an output with a train record are busy-drops (R96). -/
theorem fireRequest_of_inTrain {s : State} {n : Out} {tr : Train} (h : Pre.inTrain (s.ch n) tr)
    (o : Option Nat) : fireRequest s n o = busyCounted s := by
  obtain ⟨h | h | h | h, htrain⟩ := h <;>
    simp only [fireRequest, h, htrain, Option.isSome_some, if_true, busyDropped_eq]

theorem holdRequest_of_inTrain {s : State} {n : Out} {tr : Train} (h : Pre.inTrain (s.ch n) tr) :
    holdRequest s n = busyCounted s := by
  obtain ⟨h | h | h | h, htrain⟩ := h <;>
    simp only [holdRequest, h, htrain, Option.isSome_some, if_true, busyDropped_eq]

/-! ### The obligations -/

theorem noEntry_heard {s : State} {f : Heard} {n : Out} (h : ∀ e ∈ s.cs.queue, e.output ≠ n) :
    NoEntry (heard s f) n :=
  NoEntry.of_queue (by rw [received_cs]) h

theorem own_heard {s : State} {f : Heard} {i : Fin 63} (h : Pre.number s.own i) :
    Pre.number (heard s f).own i := by
  rw [received_own]
  exact h

/-- Settles O9: the request passes the tests of R4, and an output in OFF is queued. -/
theorem fireAndHoldQueueAnOffOutput : Obligations.FireAndHoldQueueAnOffOutput := by
  constructor
  case left =>
    intro s f n o ⟨hcoil, hoff⟩
    refine (exec_of_coil hcoil).trans (congrArg _ ?_)
    exact fireRequest_of_off (by rwa [received_ch]) o
  case right =>
    intro s f n ⟨hcoil, hoff⟩ hend
    refine (exec_of_coil hcoil).trans (congrArg _ ?_)
    refine (holdRequest_of_off (by rwa [received_ch]) (by rwa [received_powerEnded])).trans ?_
    rw [received_ch]

/-- HOLD together with the end of POWER, behind its command frame (O11, O19). -/
theorem exec_hold_at_end {s : State} {f : Heard} {n : Out} {i : Fin 63} (h : Pre.holdAtEnd s f n)
    (hown : Pre.number s.own i) :
    exec (.hold f) s = .next (restood (withChan (heard s f) n
      (inHold s n { s.ch n with holdWanted := true })) i) := by
  obtain ⟨hcoil, hend, hstate⟩ := h
  refine (exec_of_coil hcoil).trans (congrArg _ ?_)
  refine (holdRequest_at_end (own_heard hown) (by rwa [received_powerEnded]) (by rwa [received_ch])).trans ?_
  simp only [inHold, received_ch, received_tick, received_prof]

/-- Settles O11: one request and one state of the output at a time (Table 1-9). -/
theorem requestsToABusyOutput : Obligations.RequestsToABusyOutput := by
  refine ⟨?fire, ?hold, ?release, ?releaseHold, ?releaseOff, ?releaseTrain, fun s f n i => exec_hold_at_end⟩
  case fire =>
    intro s f n o ⟨hcoil, hbusy⟩
    refine (exec_of_coil hcoil).trans (congrArg _ ?_)
    refine (fireRequest_of_busy (by rwa [received_ch]) o).trans ?_
    rw [received_ch, received_prof]
  case hold =>
    intro s f n ⟨hcoil, hbusy⟩ hnot
    have hend : (s.ch n).state = .cool → n ∉ s.powerEnded := fun hcool hin =>
      hnot ⟨hcoil, hin, .inr ⟨hcool, hbusy.2⟩⟩
    refine (exec_of_coil hcoil).trans (congrArg _ ?_)
    refine (holdRequest_of_busy (by rwa [received_ch])
      (by rwa [received_ch, received_powerEnded])).trans ?_
    rw [received_tick, received_prof]
  case release =>
    intro s f n ⟨hcoil, hstate, _⟩ hhold
    refine (exec_of_coil hcoil).trans (congrArg _ ?_)
    refine releaseRequest_of_active ?_
    rw [received_ch]
    rcases hstate with hqueued | hpower | hheld | hcool
    · exact .inl hqueued
    · exact .inr (.inl hpower)
    · exact absurd hheld hhold
    · exact .inr (.inr (.inr hcool))
  case releaseHold =>
    intro s f n i ⟨hcoil, hhold⟩ hown hno
    refine (exec_of_coil hcoil).trans (congrArg _ ?_)
    refine (releaseRequest_of_hold (by rwa [received_ch]) (own_heard hown) (noEntry_heard hno)).trans ?_
    rw [received_ch, received_tick, received_prof]
  case releaseOff =>
    intro s f n ⟨hcoil, hoff⟩
    refine (exec_of_coil hcoil).trans (congrArg _ ?_)
    exact releaseRequest_of_off (by rwa [received_ch])
  case releaseTrain =>
    intro s f n tr hcoil ⟨hstate, _⟩
    refine (exec_of_coil hcoil).trans (congrArg _ ?_)
    exact releaseRequest_of_active (by rwa [received_ch])

/-- Settles O12: in FAULT every request is a busy-drop; a running train refuses FIRE, HOLD and what it cannot
add; a closed class is a tilt-drop. -/
theorem refusedRequestsAreCounted : Obligations.RefusedRequestsAreCounted := by
  constructor
  case left =>
    intro s k f n r h
    obtain ⟨hcoil, hfault⟩ | ⟨hcoil, hrefused⟩ := h
    all_goals refine (exec_of_coil hcoil).trans (congrArg _ ?_)
    · exact takeRequest_of_fault (by rwa [received_ch]) r
    · rw [← received_ch s f.source n] at hrefused
      obtain ⟨tr, htrain, ⟨o, rfl⟩ | rfl | ⟨req, rfl, hreq⟩⟩ | ⟨hbusy, req, rfl⟩ := hrefused
      · exact fireRequest_of_inTrain htrain o
      · exact holdRequest_of_inTrain htrain
      · exact (trainRequest_of_inTrain htrain req).trans (trainAddition_of_refused hreq)
      · exact trainRequest_of_busy hbusy req
  case right =>
    intro s k f n r htakes hclosed
    have hshut : ¬ (heard s f).open_ ((heard s f).prof n).cls = true := by
      rw [received_open, received_prof, open_iff]
      rintro ⟨hgo, hon⟩
      exact hclosed.elim (fun hs => absurd hs (by simp [hgo])) hon
    obtain ⟨hrx, hrun, haddr, hread⟩ := htakes
    refine (exec_of_takes ⟨hrx, hrun, haddr, hread⟩).trans (congrArg _ ?_)
    have hcs : (heard s f).sl.station = .run ∧ ((heard s f).prof n).mode.isCS = true := by
      rw [received_sl, received_prof]
      exact ⟨hrun, readCommand_isCS hread⟩
    rw [runCommand, coilRequest, if_pos hcs, if_neg hshut]
    simp only [received_pc]
    rfl

/-- Settles O14: a TRAIN on OFF makes the record and queues its first burst; one on a COUNT train adds. -/
theorem trainStartsOrAdds : Obligations.TrainStartsOrAdds := by
  constructor
  case left =>
    intro s f n req ⟨hcoil, hoff⟩
    refine (exec_of_coil hcoil).trans (congrArg _ ?_)
    refine (trainRequest_of_off (by rwa [received_ch]) req).trans ?_
    rw [received_ch, received_prof]
  case right =>
    intro s f n req tr ⟨hcoil, htrain, hreq, hfree, hstop⟩
    refine (exec_of_coil hcoil).trans (congrArg _ ?_)
    exact (trainRequest_of_inTrain (by rwa [received_ch]) req).trans
      (trainAddition_of_count hreq hfree hstop)

/-- A TRAIN STOP on an output with a train record, behind its command frame. -/
theorem exec_trainStop {s : State} {f : Heard} {n : Out} {cancel : Bool} {tr : Train}
    (h : Pre.stop s f n cancel tr) (hfault : (s.ch n).state ≠ .fault) :
    exec (.trainStop f) s =
      .next (if cancel then cancelTrain (heard s f) n else gracefulStop (heard s f) n tr) := by
  obtain ⟨hcoil, htrain⟩ := h
  refine (exec_of_coil hcoil).trans (congrArg _ ?_)
  exact trainStopRequest_of_train (by rwa [received_ch]) (by rwa [received_ch]) cancel

/-- Settles O15: each stop by the state of its output. -/
theorem trainStopByState : Obligations.TrainStopByState := by
  refine ⟨?gracefulRunning, ?cancelCool, ?gracefulGap, ?cancelPulsing, ?gracefulQueued, ?cancelQueued, ?noTrain⟩
  case gracefulRunning =>
    intro s f n tr h hstate
    rw [exec_trainStop h (by rintro hf; simp [hf] at hstate)]
    exact congrArg _ (gracefulStop_of_running (by rwa [received_ch]))
  case cancelCool =>
    intro s f n tr h hstate
    rw [exec_trainStop h (by simp [hstate])]
    exact congrArg _ (cancelTrain_of_cool (by rwa [received_ch]))
  case gracefulGap =>
    intro s f n tr h hstate
    rw [exec_trainStop h (by simp [hstate])]
    refine congrArg _ ((gracefulStop_of_gap (by rwa [received_ch])).trans ?_)
    rw [received_ch]
  case cancelPulsing =>
    intro s f n tr h hstate
    rw [exec_trainStop h (by rintro hf; simp [hf] at hstate)]
    refine congrArg _ ((cancelTrain_of_pulsing (by rwa [received_ch])).trans ?_)
    rw [received_ch]
  case gracefulQueued =>
    intro s f n tr h hstate
    rw [exec_trainStop h (by simp [hstate])]
    exact congrArg _ (gracefulStop_of_queued (by rwa [received_ch]))
  case cancelQueued =>
    intro s f n tr h hstate
    rw [exec_trainStop h (by simp [hstate])]
    refine congrArg _ ((cancelTrain_of_queued (by rwa [received_ch])).trans ?_)
    rw [received_ch]
  case noTrain =>
    intro s f n cancel hcoil htrain hfault
    refine (exec_of_coil hcoil).trans (congrArg _ ?_)
    exact trainStopRequest_of_no_train (by rwa [received_ch]) (by rwa [received_ch]) cancel

end Sys2Proof.Proofs
end

section
/-! The ends of an output's phases, the ageing of an entry, lamps and CLEAR: what each command comes to on any
state (O16, O18, O19, O20, O21, O22), and that every command answers a next state (O1, O7). -/

namespace Sys2Proof.Proofs
open Sys2Proof.Machine

/-! ### The dispatch (log 1, log 17) -/

/-- Settles O1: a step with a command waiting is that command's meaning on the rest of the queue. -/
theorem stepRunsTheFrontCommand : Obligations.StepRunsTheFrontCommand := by
  intro c rest s
  rfl

/-- Settles O7: whichever branch of its meaning a command takes, it ends in a next state. -/
theorem everyCommandAnswersANextState : Obligations.EveryCommandAnswersANextState := by
  intro c s
  cases c
  all_goals
    simp only [exec, execPowerOnReset, execResetLineAssert, execResetLineRelease, execImageCheck, execJoiningEnd,
      execUnconfiguredStatus, execFire, execHold, execRelease, execTrain, execTrainStop, execLamp, execClear,
      execQuery, execGuardPassed, execWaitLimitExpiry, execFrameOffer, execArbitrationLost, execOwnFrameComplete,
      execTransmitError, execReceiveError, execRecoveryComplete, execStopPattern, execStopPatternEnd,
      execClaimHeard, execStandingHeard, execHeardFrame, execBeatReceived, execTiltReceived, execGameReceived,
      execEventReceived, execPowerEnd, execMaxHoldExpiry, execCoolEnd, execTrainPulseEnd, execBurstPulseStart,
      execBurstCoolEnd, execOpenCheckRequest, execCurrentConversionEnd, execSupplySlot, execSupplyReadingEnd,
      execFastTrip, execFlipperTrip, execHeatDecayPass, execEntryExpiry, execAgeingOut, execRefreshExpiry,
      execRawChange, execDebounceEnd, execStuckEnd, execFlipperWindowEnd, execFlipperPowerEnd, execRepowerEnd,
      execHoldLimitEnd, execWindowStart, execBeatPhaseZero, execBeatWithdraw, execIntegratingEnd]
    repeat' split
    all_goals exact ⟨_, rfl⟩

/-! ### Lamps and CLEAR (R24, R85, R115, R120) -/

/-- A LAMP_SET in RUN, as the one record it writes. -/
theorem lampSet_of_run {s : State} (h : s.sl.station = .run) (l : Lamp) (mode : LampMode) (b : Nat)
    (p : BitVec 16) :
    lampSet s l mode b p = { s with
      lp.lamps := s.lp.lamps.set l { s.lp.lamps.get l with
        mode := mode
        b := b
        pattern := p
        step := if (s.lp.lamps.get l).step = 0 then 0 else 1
        left := if (s.lp.lamps.get l).step = 0 then (s.lp.lamps.get l).left else 4 } } := by
  rw [lampSet, if_pos h]
  by_cases hstep : (s.lp.lamps.get l).step = 0
  · simp only [hstep, if_true]
  · simp only [hstep, if_false]

/-- A flipper is sound once the other outputs it drives are: the one just cleared is. -/
theorem flipperSound_cleared (s : State) (n : Out) (i : Flip) :
    (s.updCh n (·.cleared .flipper)).flipperSound i = true ↔
      ∀ m, m ≠ n → (s.cfg.flippers.get i).drives m = true → (s.ch m).state ≠ .fault := by
  unfold State.flipperSound
  rw [List.all_eq_true]
  constructor
  · intro h m hm hdrives
    have hsound := h m (List.mem_finRange m)
    rw [updCh_ch_ne s _ hm] at hsound
    simpa [hdrives] using hsound
  · intro h m _
    by_cases hm : m = n
    · subst hm
      simp [Channel.cleared]
    · rw [updCh_ch_ne s _ hm]
      by_cases hdrives : (s.cfg.flippers.get i).drives m = true
      · simp [h m hm hdrives]
      · simp [hdrives]

theorem clearOutput_of_sound {s : State} {n : Out} (h : (s.ch n).state ≠ .fault) : clearOutput s n = s := by
  rw [clearOutput, if_neg h]

theorem clearOutput_of_coil {s : State} {n : Out} (h : (s.ch n).state = .fault)
    (hcs : (s.prof n).mode.isCS = true) : clearOutput s n = s.updCh n (unfaulted .off) := by
  have hmode : (s.prof n).mode ≠ .flipper := by rintro hm; simp [hm, CoilMode.isCS] at hcs
  rw [clearOutput, if_pos h, if_neg hmode]
  rfl

theorem clearOutput_of_flipper {s : State} {n : Out} {i : Flip} (h : (s.ch n).state = .fault)
    (hmode : (s.prof n).mode = .flipper) (hflip : s.cfg.flipperOf n = some i) :
    clearOutput s n =
      (let t := s.updCh n (unfaulted .flipper)
      if ∀ m, m ≠ n → (s.cfg.flippers.get i).drives m = true → (s.ch m).state ≠ .fault then
        { t with fl := s.fl.set i { s.fl.get i with disabled := false } }
      else t) := by
  rw [clearOutput, if_pos h, if_pos hmode]
  simp only [hflip, flipperSound_cleared]
  rfl

/-- Settles O16: LAMP by its record, CLEAR by the mode of its output. -/
theorem lampAndClearTakeEffect : Obligations.LampAndClearTakeEffect := by
  refine ⟨?lamp, ?other, ?coil, ?flipper⟩
  case lamp =>
    intro s f l mode b p h
    refine (exec_of_takes h).trans (congrArg _ ?_)
    obtain ⟨-, hrun, -⟩ := h
    refine (lampSet_of_run (by rwa [received_sl]) l mode b p).trans ?_
    simp only [received_lp]
  case other =>
    intro s f n h hstate
    refine (exec_of_takes h).trans (congrArg _ ?_)
    exact clearOutput_of_sound (by rwa [received_ch])
  case coil =>
    intro s f n h hstate hcs
    refine (exec_of_takes h).trans (congrArg _ ?_)
    exact clearOutput_of_coil (by rwa [received_ch]) (by rwa [received_prof])
  case flipper =>
    intro s f n i h hstate hmode hflip
    refine (exec_of_takes h).trans (congrArg _ ?_)
    refine (clearOutput_of_flipper (by rwa [received_ch]) (by rwa [received_prof])
      (by rwa [received_cfg])).trans ?_
    simp only [received_ch, received_cfg, received_fl]

/-! ### The entries that wait (R11, R14) -/

theorem output_of_entryOf {s : State} {n : Out} {e : Entry} (h : s.entryOf n = some e) : e.output = n := by
  simpa using List.find?_some h

theorem exec_guardPassed {s : State} {n : Out} {e : Entry} (h : Pre.guard s n e) :
    exec (.guardPassed n) s = .next (s.updEntry n Entry.passGuard) := by
  obtain ⟨hentry, hguard, hage⟩ := h
  have hdue : s.guardDue e = true := by
    simp only [State.guardDue, hguard, age, ms, hage, Bool.not_false, decide_true, Bool.and_self]
  show execGuardPassed n s = _
  simp only [execGuardPassed, hentry, if_pos hdue]

theorem exec_waitLimitExpiry {s : State} {n : Out} {e : Entry} {w : Nat} (h : Pre.waitLimit s n e w) :
    exec (.waitLimitExpiry n) s = .next (waitDrop s n) := by
  obtain ⟨hentry, hlimit, hage⟩ := h
  have hdue : s.waitDue e = true := by
    simp only [State.waitDue, output_of_entryOf hentry, hlimit, age, ms, hage, decide_true]
  show execWaitLimitExpiry n s = _
  simp only [execWaitLimitExpiry, hentry, if_pos hdue]

theorem unqueued_waitDrop (s : State) (n : Out) : (unqueued s n).cs.waitDrop = s.cs.waitDrop := by
  rw [← dequeue_eq, dequeue_cs]
  rfl

theorem waitDrop_eq (s : State) (n : Out) :
    waitDrop s n = select
      (let t := withChan (unqueued s n) n (offed { s.ch n with
        repeats := 0, holdWanted := false, train := none })
      { t with cs := { t.cs with waitDrop := min 65535 (s.cs.waitDrop + 1) } }) := by
  rw [waitDrop, toOff, updCh_updCh, dequeue_eq, updCh_eq_withChan, unqueued_ch, ← unqueued_waitDrop s n]
  rfl

/-- Settles O18: the guard flag alone; the entry dropped with its work and a selection. -/
theorem waitingEntriesAgeByGuardAndLimit : Obligations.WaitingEntriesAgeByGuardAndLimit := by
  constructor
  case left =>
    intro s n e h
    exact exec_guardPassed h
  case right =>
    intro s n e w h
    rw [exec_waitLimitExpiry h, waitDrop_eq]

/-! ### The ends of the phases of an output (R16–R19, R93, R94) -/

theorem phaseOver_of {s : State} {n : Out} {st : ChanState} (h : Pre.over s n st) :
    s.phaseOver n st = true := by
  obtain ⟨hstate, hend⟩ := h
  simp [State.phaseOver, hstate, hend]

theorem exec_powerEnd {s : State} {n : Out} (h : Pre.powerEnd s n) :
    exec (.powerEnd n) s =
      if (s.ch n).openCount = 3 then .next (toFault s n .open)
      else if (s.prof n).mode = .pulseHold ∧ (s.ch n).holdWanted = true then
        .next (enterHold (powerOver s n) n)
      else .next (coolFrom (powerOver s n) n) := by
  obtain ⟨hstate, htrain, hend⟩ := h
  show execPowerEnd n s = _
  simp only [execPowerEnd, phaseOver_of ⟨hstate, hend⟩, htrain, and_self, if_true]
  rfl

theorem powerOver_own (s : State) (n : Out) : (powerOver s n).own = s.own := by
  unfold powerOver; split <;> rfl
theorem powerOver_tick (s : State) (n : Out) : (powerOver s n).tick = s.tick := by
  unfold powerOver; split <;> rfl
theorem powerOver_ch (s : State) (n m : Out) : (powerOver s n).ch m = s.ch m := by
  unfold powerOver; split <;> rfl
theorem powerOver_prof (s : State) (n m : Out) : (powerOver s n).prof m = s.prof m := by
  unfold powerOver; split <;> rfl

/-- POWER of a single pulse runs out, its output not in FAULT and not to be held. -/
theorem exec_powerEnd_cool {s : State} {n : Out} (h : Pre.powerEnd s n) (hopen : (s.ch n).openCount ≠ 3)
    (hwant : ¬ ((s.prof n).mode = .pulseHold ∧ (s.ch n).holdWanted = true)) :
    exec (.powerEnd n) s = .next (coolEntered (powerOver s n) n (s.ch n)) := by
  rw [exec_powerEnd h, if_neg hopen, if_neg hwant, coolFrom_eq, powerOver_ch]

/-- Where no pulse is queued again, the output waits in COOL or OFF with the draw of its pulse. -/
theorem coolEntered_rests {s : State} {n : Out} (htrain : (s.ch n).train = none)
    (h : 0 < (s.prof n).cool ∨ (s.ch n).repeats = 0) :
    let t := coolEntered s n (s.ch n)
    (∃ c, t = withChan s n c) ∧ (t.ch n).draw = (s.ch n).draw ∧
      ((t.ch n).state = .off ∨ (t.ch n).state = .cool ∧ (t.ch n).train = none) := by
  have hch := withChan_ch_self s n (cooled s.tick (s.prof n).cool (s.ch n))
  intro t
  by_cases hzero : (s.prof n).cool = 0
  · have ht : t = withChan s n (offed { cooled s.tick (s.prof n).cool (s.ch n) with holdWanted := false }) := by
      show coolIfOver (withChan s n _) n = _
      have hrepeats : (s.ch n).repeats = 0 := h.resolve_left (by omega)
      rw [coolIfOver, withChan_prof, if_pos hzero, coolEnded, hch]
      simp only [cooled, htrain, hrepeats, if_true]
      rw [updCh_eq_withChan, withChan_withChan, withChan_ch_self]
    rw [ht, withChan_ch_self]
    exact ⟨⟨_, rfl⟩, rfl, .inl rfl⟩
  · have ht : t = withChan s n (cooled s.tick (s.prof n).cool (s.ch n)) := if_neg hzero
    rw [ht, withChan_ch_self]
    exact ⟨⟨_, rfl⟩, rfl, .inr ⟨rfl, htrain⟩⟩

/-- Settles O19: POWER ends in FAULT, HOLD or COOL, and a HOLD of the same instant leads from that COOL to
HOLD. -/
theorem powerEndLeadsToFaultHoldOrCool : Obligations.PowerEndLeadsToFaultHoldOrCool := by
  refine ⟨?fault, ?hold, fun s n h hopen hwant => exec_powerEnd_cool h hopen hwant, ?holdAfter⟩
  case fault =>
    intro s n i h hown hopen
    rw [exec_powerEnd h, if_pos hopen, toFault_eq (i := i) hown]
    rfl
  case hold =>
    intro s n i h hown hopen hmode hwant
    rw [exec_powerEnd h, if_neg hopen, if_pos ⟨hmode, hwant⟩, enterHold_eq (i := i) (by rwa [powerOver_own]),
      powerOver_ch]
    simp only [inHold, powerOver_tick, powerOver_prof]
  case holdAfter =>
    intro s t f n i h hown hopen hmode hwant hrest hexec hcoil
    have hcool := exec_powerEnd_cool h hopen (by simp [hwant])
    have ht : t = coolEntered (powerOver s n) n ((powerOver s n).ch n) := by
      rw [hexec, Host.Outcome.next.injEq] at hcool
      rw [hcool, powerOver_ch]
    obtain ⟨⟨c, hc⟩, hdraw, hstate⟩ := coolEntered_rests (s := powerOver s n) (n := n)
      (by rw [powerOver_ch]; exact h.2.1) (by rwa [powerOver_ch, powerOver_prof])
    rw [← ht] at hc hdraw hstate
    have hin : n ∈ t.powerEnded := by
      rw [hc, powerOver, if_pos hmode]
      exact List.mem_cons_self
    have hnumber : Pre.number t.own i := by
      have : t.own = (powerOver s n).own := by rw [hc]; rfl
      rw [this, powerOver_own]
      exact hown
    exact ⟨hdraw.trans (by rw [powerOver_ch]), exec_hold_at_end ⟨hcoil, hin, hstate⟩ hnumber⟩

/-- Settles O20: MAX_HOLD_EXPIRY leaves HOLD with its timeout counted; COOL_END ends COOL. -/
theorem holdAndCoolEndInTheirStates : Obligations.HoldAndCoolEndInTheirStates := by
  constructor
  case left =>
    intro s n i hover hown hno
    show execMaxHoldExpiry n s = _
    have hleave := leaveHold_eq (s := withChan s n { s.ch n with
      holdWanted := false, holdTimeouts := min 255 ((s.ch n).holdTimeouts + 1) }) (n := n) hown hno
    rw [withChan_withChan, withChan_ch_self] at hleave
    rw [execMaxHoldExpiry, if_pos (phaseOver_of hover)]
    exact congrArg _ hleave
  case right =>
    intro s n hover htrain
    show execCoolEnd n s = _
    rw [execCoolEnd, if_pos ⟨phaseOver_of hover, htrain⟩, coolOver_eq htrain]

theorem exec_trainPulseEnd_more {s : State} {n : Out} {tr : Train} {b : Burst} (h : Pre.pulseEnd s n tr)
    (hopen : (s.ch n).openCount ≠ 3) (hmore : Pre.moreToCome tr b) :
    exec (.trainPulseEnd n) s =
      .next (s.updCh n fun c => { c with state := .gap, checkDue := none }) := by
  obtain ⟨hover, htrain⟩ := h
  obtain ⟨hburst, hleft, hgo⟩ := hmore
  show execTrainPulseEnd n s = _
  simp only [execTrainPulseEnd, htrain, phaseOver_of hover, if_neg hopen, hburst, hleft, hgo, and_self, if_true]

theorem exec_trainPulseEnd_last {s : State} {n : Out} {tr : Train} (h : Pre.pulseEnd s n tr)
    (hopen : (s.ch n).openCount ≠ 3) (hlast : ∀ b, ¬ Pre.moreToCome tr b) :
    exec (.trainPulseEnd n) s = .next (coolFrom s n) := by
  obtain ⟨hover, htrain⟩ := h
  show execTrainPulseEnd n s = _
  cases hburst : tr.burst with
  | none => simp only [execTrainPulseEnd, htrain, phaseOver_of hover, if_neg hopen, if_true, hburst]
  | some b =>
    have hstop : ¬ (b.started < b.kPrime ∧ tr.stopRequested = false) := fun hmore => hlast b ⟨hburst, hmore⟩
    simp only [execTrainPulseEnd, htrain, phaseOver_of hover, if_neg hopen, if_true, hburst, if_neg hstop]

/-- Settles O21: a pulse of a train ends in FAULT, GAP or COOL; the next one starts in GAP. -/
theorem trainPulsesFollowInTurn : Obligations.TrainPulsesFollowInTurn := by
  refine ⟨?fault, ?gap, ?cool, ?start⟩
  case fault =>
    intro s n i tr ⟨hover, htrain⟩ hown hopen
    show execTrainPulseEnd n s = _
    simp only [execTrainPulseEnd, htrain, phaseOver_of hover, hopen, if_true]
    exact congrArg _ (toFault_eq (i := i) hown .open)
  case gap =>
    intro s n tr b h hopen hmore
    exact exec_trainPulseEnd_more h hopen hmore
  case cool =>
    intro s n tr h hopen hlast
    rw [exec_trainPulseEnd_last h hopen hlast, coolFrom_eq]
  case start =>
    intro s n tr b ⟨hstate, htrain, hburst, hdue⟩
    show execBurstPulseStart n s = _
    have hnext : reached s.tick b.nextStart = true := hdue
    simp only [execBurstPulseStart, htrain, hburst, hstate, hnext, and_self, if_true]
    refine congrArg _ (updCh_congr ?_)
    have hwrap : (tr.wrap || (tr.free && decide (65535 ≤ tr.fired))) =
        if tr.free = true ∧ 65535 ≤ tr.fired then true else tr.wrap := by
      cases tr.free <;> cases tr.wrap <;> simp
    simp only [Channel.withTrain, Channel.powerOn, Train.pulse, hburst, Option.map_some, hwrap]
    rfl

/-- Settles O22: the COOL after a burst ends as `coolEnded` says. -/
theorem burstCoolEndEndsOrGoesOn : Obligations.BurstCoolEndEndsOrGoesOn := by
  intro s n tr hover htrain
  show execBurstCoolEnd n s = _
  simp only [execBurstCoolEnd, htrain, phaseOver_of hover, if_true, burstCoolOver_eq htrain]

end Sys2Proof.Proofs
end

section
/-! Selection: the halvings of R42 and R10, the entry that is chosen, the claim made or granted (O8), and a request
granted at once in ISOLATED (O10). -/

namespace Sys2Proof.Proofs
open Sys2Proof.Machine

/-! ### Halvings (R10, R42) -/

/-- The halved number is fixed: the first halving that fits, or 1. -/
theorem halved_unique {fits : Nat → Prop} {k a b : Nat} (ha : Halved fits k a) (hb : Halved fits k b) :
    a = b := by
  obtain ⟨i, rfl, hi, hbefore_i⟩ := ha
  obtain ⟨j, rfl, hj, hbefore_j⟩ := hb
  obtain hlt | rfl | hlt := Nat.lt_trichotomy i j
  · obtain ⟨hno, hone⟩ := hbefore_j i hlt
    exact hi.elim (fun h => absurd h hno) fun h => absurd h (Nat.not_le.mpr hone)
  · rfl
  · obtain ⟨hno, hone⟩ := hbefore_i j hlt
    exact hj.elim (fun h => absurd h hno) fun h => absurd h (Nat.not_le.mpr hone)

theorem halved_of_fits {fits : Nat → Prop} {k : Nat} (h : fits k ∨ k ≤ 1) : Halved fits k k :=
  ⟨0, by simp, h, by simp⟩

theorem halved_of_half {fits : Nat → Prop} {k k' : Nat} (hno : ¬ fits k) (hone : 1 < k)
    (h : Halved fits (k / 2) k') : Halved fits k k' := by
  obtain ⟨i, hk', hfits, hbefore⟩ := h
  have hhalf (j : Nat) : k / 2 / 2 ^ j = k / 2 ^ (j + 1) := by
    rw [Nat.div_div_eq_div_mul, Nat.pow_succ, Nat.mul_comm]
  refine ⟨i + 1, hk'.trans (hhalf i), hfits, fun j hj => ?_⟩
  cases j with
  | zero => simpa using ⟨hno, hone⟩
  | succ j =>
    rw [← hhalf j]
    exact hbefore j (by omega)

/-- The model's halving is the halving of the statements, with fuel enough for the number. -/
theorem halve_halved {ok : Nat → Bool} {fits : Nat → Prop} (hok : ∀ j, ok j = true ↔ fits j) (fuel : Nat) :
    ∀ k, k ≤ fuel → Halved fits k (halve ok fuel k) := by
  induction fuel with
  | zero =>
    intro k hk
    exact halved_of_fits (.inr (by omega))
  | succ fuel ih =>
    intro k hk
    unfold halve
    split
    next h => exact halved_of_fits (by rwa [hok] at h)
    next h =>
      rw [hok, not_or] at h
      exact halved_of_half h.1 (by omega) (ih _ (by omega))

theorem fitDuration_halved (k period t : Nat) :
    Halved (fun j => (j - 1) * period + t ≤ 65535) k (fitDuration k period t) :=
  halve_halved (fun _ => decide_eq_true_iff) k k (Nat.le_refl k)

theorem fitHeat_halved (k t limit : Nat) : Halved (fun j => j * t ≤ limit) k (fitHeat k t limit) :=
  halve_halved (fun _ => decide_eq_true_iff) k k (Nat.le_refl k)

theorem heatTest_iff (heat limit k t : Nat) : heatTest heat limit k t = true ↔ HeatPasses heat limit k t := by
  have hfit := fitHeat_halved k t limit
  have htest : heatTest heat limit k t = true ↔
      heat + fitHeat k t limit * t ≤ limit ∨ limit < fitHeat k t limit * t ∧ heat = 0 := by
    unfold heatTest
    dsimp only
    split <;> simp only [decide_eq_true_eq] <;> omega
  rw [htest]
  constructor
  · exact fun h => ⟨_, hfit, h⟩
  · rintro ⟨k', hk', h⟩
    rwa [halved_unique hk' hfit] at h

/-! ### Eligible entries (R10) -/

theorem entryK_eq (s : State) (e : Entry) : s.entryK e = pulsesOf s e := by
  unfold State.entryK State.entryTrain pulsesOf
  cases e.burst with
  | false => rfl
  | true => cases (s.ch e.output).train <;> rfl

theorem budgetTest_iff (total d ceiling : Nat) : budgetTest total d ceiling = true ↔ Passes total d ceiling := by
  simp only [budgetTest, decide_eq_true_eq]

theorem eligible_iff (s : State) (e : Entry) : s.eligible e = true ↔ Eligible s e := by
  unfold State.eligible Eligible
  simp only [Bool.and_eq_true, Bool.not_eq_true', decide_eq_true_eq, open_iff, heatTest_iff, budgetTest_iff,
    entryK_eq, and_assoc]
  rfl

/-! ### The entry chosen (R11, R12) -/

/-- The first entry of a kind in a queue, with no guard-passed entry ahead of it. -/
theorem find_unblocked_iff (p : Entry → Bool) (l : List Entry) (e : Entry) :
    (unblocked l).find? p = some e ↔
      ∃ ahead behind, l = ahead ++ e :: behind ∧ p e = true ∧
        ∀ x ∈ ahead, ¬ p x = true ∧ x.guard = false := by
  induction l with
  | nil => simp [unblocked]
  | cons x rest ih =>
    constructor
    · intro h
      by_cases hp : p x = true
      · have hx : x = e := by
          unfold unblocked at h
          split at h <;> simpa [hp] using h
        exact ⟨[], rest, by rw [hx]; rfl, hx ▸ hp, by simp⟩
      · have hguard : x.guard = false := by
          refine Classical.byContradiction fun hg => ?_
          rw [Bool.not_eq_false] at hg
          simp [unblocked, hg, hp] at h
        have hrest : (unblocked rest).find? p = some e := by
          simpa [unblocked, hguard, hp] using h
        obtain ⟨ahead, behind, hsplit, he, hahead⟩ := ih.mp hrest
        refine ⟨x :: ahead, behind, by rw [hsplit]; rfl, he, fun y hy => ?_⟩
        obtain rfl | hy := List.mem_cons.mp hy
        · exact ⟨hp, hguard⟩
        · exact hahead y hy
    · rintro ⟨ahead, behind, hsplit, he, hahead⟩
      cases ahead with
      | nil =>
        obtain ⟨rfl, rfl⟩ := List.cons.inj hsplit
        unfold unblocked
        split <;> simp [he]
      | cons y ahead =>
        obtain ⟨rfl, rfl⟩ := List.cons.inj hsplit
        obtain ⟨hp, hguard⟩ := hahead x List.mem_cons_self
        have hrest := ih.mpr ⟨ahead, behind, rfl, he, fun z hz => hahead z (List.mem_cons_of_mem _ hz)⟩
        simpa [unblocked, hguard, hp] using hrest

theorem chosen_iff (s : State) (e : Entry) :
    (unblocked s.cs.queue).find? s.eligible = some e ↔ Chosen s e := by
  rw [find_unblocked_iff]
  simp only [eligible_iff, Chosen]

/-- The figures of a claim are those of its entry (R42, R56, R91). -/
theorem claimOf_fixed (s : State) (e : Entry) : FixedAt s e (s.claimOf e) := by
  by_cases hburst : e.burst = true
  · cases htrain : (s.ch e.output).train with
    | none =>
      have hentry : s.entryTrain e = none := by rw [State.entryTrain, if_pos hburst, htrain]
      simp [FixedAt, State.claimOf, hentry, htrain, State.entryDraw, State.entryT, drawNow, timeOf]
    | some tr =>
      have hentry : s.entryTrain e = some tr := by rw [State.entryTrain, if_pos hburst, htrain]
      have hpulses : pulsesOf s e = tr.offered := by rw [← entryK_eq, State.entryK, hentry]
      simp only [FixedAt, State.claimOf, hentry, htrain, hpulses]
      refine ⟨trivial, trivial, rfl, rfl, trivial, by simp [hburst], fun tr' _ htr => ?_⟩
      obtain rfl := Option.some.inj htr
      exact ⟨_, _, fitDuration_halved _ _ _, fitHeat_halved _ _ _, rfl, rfl⟩
  · have hentry : s.entryTrain e = none := by rw [State.entryTrain, if_neg hburst]
    simp [FixedAt, State.claimOf, hentry, hburst, State.entryDraw, State.entryT, drawNow, timeOf]

theorem claimOf_cls (s : State) (e : Entry) : (s.claimOf e).cls = e.cls := (claimOf_fixed s e).2.1

/-! ### The claim made, or decided at once (R56, R58, R68) -/

theorem placeClaim_eq (s : State) (e : Entry) : placeClaim s e = claimMade s (s.claimOf e) := by
  unfold claimMade
  simp only [claimOf_output]
  unfold placeClaim
  simp only [claimFrame, claimOf_output]
  rfl

theorem granted_eq (ch : Channel) (c : Claim) (at_ : Tick) : ch.granted c at_ = pulsed ch c at_ := by
  unfold Channel.granted pulsed
  cases c.burst with
  | none => rfl
  | some b =>
    obtain ⟨k, period⟩ := b
    cases ch.train with
    | none => rfl
    | some tr =>
      have hwrap : (tr.wrap || (tr.free && decide (65535 ≤ tr.fired))) =
          if tr.free = true ∧ 65535 ≤ tr.fired then true else tr.wrap := by
        cases tr.free <;> cases tr.wrap <;> simp
      simp only [Option.map_some, Train.granted, Train.pulse, hwrap]
      rfl

/-- A decision on a claim that is no longer in flight is what `afterDecision` says. -/
theorem decide_noClaim_eq (s : State) (c : Claim) (at_ : Tick) :
    decide_ s.noClaim c at_ = afterDecision s c at_ := by
  have hpass : s.noClaim.passes c = true ↔ Passes s.db.viewTotal c.draw (ceilingOf s c.cls) :=
    budgetTest_iff _ _ _
  unfold decide_ afterDecision
  by_cases hp : Passes s.db.viewTotal c.draw (ceilingOf s c.cls)
  · rw [if_pos (hpass.mpr hp)]
    dsimp only
    rw [if_pos hp]
    cases hw : c.withdrawn with
    | true =>
      simp only [if_true]
      rw [addOwnEntry, State.ownEntry, hw]
      rfl
    | false =>
      simp only [Bool.false_eq_true, if_false]
      rw [grant, addOwnEntry, State.ownEntry, hw, updCh_eq_withChan, granted_eq]
      rfl
  · rw [if_neg (fun h => hp (hpass.mp h))]
    dsimp only
    rw [if_neg hp]
    cases c.withdrawn <;> rfl

theorem decideClaim_eq {s : State} {c : Claim} (h : s.db.claim = some c) (at_ : Tick) :
    decideClaim s at_ = afterDecision s c at_ := by
  rw [decideClaim, h]
  exact decide_noClaim_eq s c at_

theorem noClaim_of_none {s : State} (h : s.db.claim = none) : s.noClaim = s := by
  unfold State.noClaim
  rw [← h]

theorem isolated_claim_passes {s : State} {e : Entry} (h : Eligible s e) :
    Passes s.db.viewTotal (s.claimOf e).draw (ceilingOf s (s.claimOf e).cls) := by
  obtain ⟨-, -, -, -, -, -, hpass⟩ := h
  obtain ⟨-, hcls, hdraw, -⟩ := claimOf_fixed s e
  rwa [hcls, hdraw]

/-- A local decision on an eligible entry passes, and takes it out of the queue. -/
theorem decide_queue_length {s : State} {e : Entry} (hmem : e ∈ s.cs.queue) (h : Eligible s e) (at_ : Tick) :
    (decide_ s (s.claimOf e) at_).cs.queue.length < s.cs.queue.length := by
  have hpass : s.passes (s.claimOf e) = true := (budgetTest_iff _ _ _).mpr (isolated_claim_passes h)
  have hwithdrawn : (s.claimOf e).withdrawn = false := (claimOf_fixed s e).2.2.2.2.1
  have hqueue : (decide_ s (s.claimOf e) at_).cs.queue =
      s.cs.queue.filter (·.output ≠ (s.claimOf e).output) := by
    simp only [decide_, if_pos hpass, hwithdrawn]
    rfl
  rw [hqueue, claimOf_output]
  exact List.length_filter_lt_length_iff_exists.mpr ⟨e, hmem, by simp⟩

/-- Rounds beyond one for each entry change nothing. -/
theorem selectLoop_succ (fuel : Nat) :
    ∀ s : State, s.cs.queue.length ≤ fuel → selectLoop (fuel + 1) s = selectLoop fuel s := by
  induction fuel with
  | zero =>
    intro s h
    have hempty : s.cs.queue = [] := List.length_eq_zero_iff.mp (Nat.le_zero.mp h)
    unfold selectLoop
    rw [hempty]
    simp [unblocked]
  | succ fuel ih =>
    intro s h
    unfold selectLoop
    split
    · rfl
    · split
      next => rfl
      next e he =>
        obtain ⟨ahead, behind, hsplit, helig, -⟩ := (chosen_iff s e).mp he
        split
        · refine ih _ ?_
          have := decide_queue_length (by rw [hsplit]; simp) helig s.tick
          omega
        · rfl

theorem selectLoop_eq_select (s : State) (fuel : Nat) (h : s.cs.queue.length ≤ fuel) :
    selectLoop fuel s = select s := by
  obtain ⟨extra, rfl⟩ := Nat.exists_eq_add_of_le h
  rw [select, selectLoop_succ _ s (Nat.le_refl _)]
  induction extra with
  | zero => rfl
  | succ extra ih => rw [← Nat.add_assoc, selectLoop_succ _ s (by omega), ih (by omega)]

theorem select_of_chosen_normal {s : State} {e : Entry} (hclaim : s.db.claim = none)
    (hnormal : s.isolated = false) (h : Chosen s e) : select s = claimMade s (s.claimOf e) := by
  rw [← placeClaim_eq, select, selectLoop, hclaim, (chosen_iff s e).mpr h, hnormal]
  simp

theorem select_of_chosen_isolated {s : State} {e : Entry} (hclaim : s.db.claim = none)
    (hisolated : s.isolated = true) (h : Chosen s e) :
    select s = select (afterDecision s (s.claimOf e) s.tick) := by
  have hround : select s = selectLoop s.cs.queue.length (decide_ s (s.claimOf e) s.tick) := by
    rw [select, selectLoop, hclaim, (chosen_iff s e).mpr h, hisolated]
    simp
  obtain ⟨ahead, behind, hsplit, helig, -⟩ := h
  have hless := decide_queue_length (by rw [hsplit]; simp) helig s.tick
  rw [hround, selectLoop_eq_select _ _ (by omega), ← decide_noClaim_eq, noClaim_of_none hclaim]

/-- A new entry stands behind its own class and the lower ones, and ahead of the higher (R9). -/
theorem insertEntry_splits (e : Entry) (l : List Entry) (h : l.Pairwise fun a b => a.cls ≤ b.cls) :
    ∃ ahead behind, l = ahead ++ behind ∧ insertEntry e l = ahead ++ e :: behind ∧
      (∀ x ∈ ahead, x.cls ≤ e.cls) ∧ ∀ x ∈ behind, e.cls < x.cls := by
  induction l with
  | nil => exact ⟨[], [], rfl, rfl, by simp, by simp⟩
  | cons x rest ih =>
    obtain ⟨hx, hrest⟩ := List.pairwise_cons.mp h
    unfold insertEntry
    by_cases hlt : e.cls < x.cls
    · refine ⟨[], x :: rest, rfl, if_pos hlt, by simp, fun y hy => ?_⟩
      obtain rfl | hy := List.mem_cons.mp hy
      · exact hlt
      · exact Nat.lt_of_lt_of_le hlt (hx y hy)
    · obtain ⟨ahead, behind, hsplit, hinsert, hahead, hbehind⟩ := ih hrest
      refine ⟨x :: ahead, behind, by rw [hsplit]; rfl, by rw [if_neg hlt, hinsert]; rfl, fun y hy => ?_, hbehind⟩
      obtain rfl | hy := List.mem_cons.mp hy
      · omega
      · exact hahead y hy

/-- Settles O8: nothing chosen, nothing done; else one claim is made, or decided and the selection repeated. -/
theorem selectionClaimsTheFirstEligibleEntry : Obligations.SelectionClaimsTheFirstEligibleEntry := by
  refine ⟨fun s h => select_of_claim h, ?none, ?normal, ?isolated, fun e l h => insertEntry_splits e l h⟩
  case none =>
    intro s hnone
    refine select_of_none (Option.eq_none_iff_forall_ne_some.mpr fun e he => ?_)
    exact hnone e ((chosen_iff s e).mp he)
  case normal =>
    intro s e hclaim hnormal h
    exact ⟨_, claimOf_fixed s e, select_of_chosen_normal hclaim hnormal h⟩
  case isolated =>
    intro s e hclaim hisolated h
    have helig : Eligible s e := by
      obtain ⟨ahead, behind, -, helig, -⟩ := h
      exact helig
    exact ⟨_, claimOf_fixed s e, isolated_claim_passes helig, select_of_chosen_isolated hclaim hisolated h⟩

/-! ### A request granted at once in ISOLATED (R68) -/

theorem fixedAt_unique {s : State} {e : Entry} {a b : Claim} (ha : FixedAt s e a) (hb : FixedAt s e b) :
    a = b := by
  obtain ⟨ho, hc, hd, ht, hw, hsingle, htrain⟩ := ha
  obtain ⟨ho', hc', hd', ht', hw', hsingle', htrain'⟩ := hb
  have htimes : a.t = b.t := ht.trans ht'.symm
  have hrest : a.burst = b.burst ∧ a.duration = b.duration := by
    by_cases h : e.burst = false ∨ (s.ch e.output).train = none
    · obtain ⟨h₁, h₂⟩ := hsingle h
      obtain ⟨h₁', h₂'⟩ := hsingle' h
      exact ⟨h₁.trans h₁'.symm, by rw [h₂, h₂', htimes]⟩
    · rw [not_or, Bool.not_eq_false] at h
      obtain ⟨hburst, hsome⟩ := h
      obtain ⟨tr, htr⟩ := Option.ne_none_iff_exists'.mp hsome
      obtain ⟨k₁, k, hdur, hheat, h₁, h₂⟩ := htrain tr hburst htr
      obtain ⟨k₁', k', hdur', hheat', h₁', h₂'⟩ := htrain' tr hburst htr
      rw [← htimes] at hdur' hheat' h₁' h₂'
      obtain rfl := halved_unique hdur hdur'
      obtain rfl := halved_unique hheat hheat'
      exact ⟨h₁.trans h₁'.symm, h₂.trans h₂'.symm⟩
  obtain ⟨output, cls, draw, t, burst, duration, withdrawn⟩ := a
  obtain ⟨output', cls', draw', t', burst', duration', withdrawn'⟩ := b
  simp only at *
  obtain ⟨rfl, rfl⟩ := hrest
  subst ho hc hd ht hw ho' hc' hd' ht' hw'
  rfl

/-- In ISOLATED, an entry alone in the queue that is eligible is granted, and nothing is left to select. -/
theorem select_of_alone {s : State} {e : Entry} {c : Claim} (hqueue : s.cs.queue = [e])
    (hclaim : s.db.claim = none) (hisolated : s.isolated = true) (helig : Eligible s e)
    (hfixed : FixedAt s e c) : select s = afterDecision s c s.tick := by
  have hchosen : Chosen s e := ⟨[], [], hqueue, helig, by simp⟩
  have hc : s.claimOf e = c := fixedAt_unique (claimOf_fixed s e) hfixed
  have hless := decide_queue_length (s := s) (e := e) (by simp [hqueue]) helig s.tick
  have hdecide : decide_ s c s.tick = afterDecision s c s.tick := by
    rw [← decide_noClaim_eq, noClaim_of_none hclaim]
  rw [hc, hdecide, hqueue] at hless
  have hempty : (afterDecision s c s.tick).cs.queue = [] :=
    List.length_eq_zero_iff.mp (Nat.lt_one_iff.mp hless)
  rw [select_of_chosen_isolated hclaim hisolated hchosen, hc, select_of_empty hempty]

section Alone
variable {s : State} {k : CommandKind} {f : Heard} {n : Out} {r : Request} {base d t : Nat}
  {burst : Bool} {o : Option Nat} {c : Channel}

/-- The entry of a request that meets `Pre.alone`, with a channel that may have taken a train, is eligible. -/
theorem eligible_of_alone (h : Pre.alone s k f n r base d t) (hheat : c.heat = (s.ch n).heat)
    (hbase : o.getD (s.prof n).base = base) :
    let u := queuedWith (withChan (heard s f) n c) n burst o
    let e := newEntry (heard s f) n burst o
    HeatPasses (s.ch n).heat (s.prof n).heatLimit (pulsesOf u e) t →
    u.cs.queue = [e] ∧ u.db.claim = none ∧ u.isolated = true ∧ Eligible u e ∧ timeOf u e = t ∧
      drawNow u e = d := by
  obtain ⟨⟨⟨_, hstopped, hclass⟩, hoff⟩, hisolated, hqueue, hclaim, hsupply, ht, hd, hpass⟩ := h
  intro u e hpasses
  have hprof : (heard s f).prof n = s.prof n := received_prof s _ n
  have htime : timeOf u e = t := by
    show stretch (o.getD ((heard s f).prof n).base) (heard s f).cfg.station.vnom (heard s f).sc.supply = t
    rw [hprof, received_cfg, received_sc, hbase, ht]
  have hdraw : drawNow u e = d := by
    show drawOf ((heard s f).prof n).res (heard s f).cfg.station.vnom (heard s f).sc.supply = d
    rw [hprof, received_cfg, received_sc, hd]
  have hceiling : ceilingOf u e.cls = s.cfg.station.soloS := by
    have : u.isolated = true := hisolated
    rw [ceilingOf, if_pos this]
    show (heard s f).cfg.station.soloS = _
    rw [received_cfg]
  have hheat' : (u.ch n).heat = (s.ch n).heat := by
    show (((withChan (heard s f) n c).cs.chan.set n _).get n).heat = _
    rw [Bank.get_set_self, withChan_ch_self]
    exact hheat
  refine ⟨?_, ?_, hisolated, ⟨?_, ?_, ?_, rfl, rfl, ?_, ?_⟩, htime, hdraw⟩
  · show insertEntry _ (heard s f).cs.queue = _
    rw [received_cs, hqueue]
    rfl
  · show (heard s f).db.claim = none
    rw [received_claim, hclaim]
  · show (heard s f).pc.stopped = false
    rw [received_pc, hstopped]
  · show ¬ ClassOff (heard s f).pc.state ((heard s f).prof n).cls
    rw [received_pc, hprof]
    exact hclass
  · show (heard s f).sc.supplyState = _
    rw [received_sc, hsupply]
  · show HeatPasses (u.ch n).heat ((heard s f).prof n).heatLimit _ _
    rw [hheat', hprof, htime]
    exact hpasses
  · rw [hdraw, hceiling]
    exact hpass

end Alone

/-- A channel written as it stands changes nothing. -/
theorem withChan_self (s : State) (n : Out) : withChan s n (s.ch n) = s := by
  unfold withChan State.ch
  rw [Bank.set_get]

/-- Settles O10: the request's entry is alone in the queue and eligible, so it is granted there and then. -/
theorem isolatedRequestsAreGrantedLocally : Obligations.IsolatedRequestsAreGrantedLocally := by
  constructor
  case left =>
    intro s f n o d p h hheat
    obtain ⟨hqueue, hclaim, hisolated, helig, htime, hdraw⟩ :=
      eligible_of_alone (c := s.ch n) (burst := false) (o := o) h rfl rfl (by exact hheat)
    rw [← received_ch s f.source n, withChan_self] at hqueue hclaim hisolated helig htime hdraw
    rw [fireAndHoldQueueAnOffOutput.1 s f n o h.1,
      select_of_alone (c := ⟨n, (s.prof n).cls, d, p, none, p, false⟩) hqueue hclaim hisolated helig]
    · exact congrArg (fun now => Host.Outcome.next (afterDecision _ _ now)) (received_tick s f.source)
    · refine ⟨rfl, ?_, hdraw.symm, htime.symm, rfl, fun _ => ⟨rfl, rfl⟩, fun _ hb => absurd hb (by simp [newEntry])⟩
      exact congrArg Profile.cls (received_prof s f.source n).symm
  case right =>
    intro s f n req d p period k₁ k h hheat hperiod hdur hfit
    let c : Channel := { s.ch n with train := some (newTrain req (s.prof n).burst) }
    let u := queuedWith (withChan (heard s f) n c) n true none
    have htrain : (u.ch n).train = some (newTrain req (s.prof n).burst) := by
      show (((withChan (heard s f) n c).cs.chan.set n _).get n).train = _
      rw [Bank.get_set_self, withChan_ch_self]
    have hpulses : pulsesOf u (newEntry (heard s f) n true none) = firstPulses s n req := by
      show (match true, (u.ch n).train with
        | true, some tr => if tr.free then tr.size else min tr.size tr.remaining
        | _, _ => 1) = _
      rw [htrain]
      simp only [newTrain, firstPulses]
      by_cases hfree : req.free = true <;> simp only [hfree, if_true, if_false, Bool.false_eq_true]
    obtain ⟨hqueue, hclaim, hisolated, helig, htime, hdraw⟩ :=
      eligible_of_alone (c := c) (burst := true) (o := none) h rfl rfl (by rw [hpulses]; exact hheat)
    rw [trainStartsOrAdds.1 s f n req h.1,
      select_of_alone (c := ⟨n, (s.prof n).cls, d, p, some (k, period), (k - 1) * period + p, false⟩)
        hqueue hclaim hisolated helig]
    · exact congrArg (fun now => Host.Outcome.next (afterDecision _ _ now)) (received_tick s f.source)
    · have hprof : u.prof n = s.prof n := received_prof s f.source n
      refine ⟨rfl, congrArg Profile.cls hprof.symm, hdraw.symm, htime.symm, rfl, ?_, fun tr _ htr => ?_⟩
      · rintro (hb | hb)
        · exact absurd hb (by simp [newEntry])
        · exact absurd (htrain.symm.trans hb) (by simp)
      · obtain rfl := Option.some.inj (htrain.symm.trans htr)
        refine ⟨k₁, k, ?_⟩
        show Halved _ (pulsesOf u _) k₁ ∧ Halved (fun j => j * p ≤ (u.prof n).heatLimit) k₁ k ∧
          some (k, period) = some (k, max req.period (p + (u.prof n).cool)) ∧
          (k - 1) * period + p = (k - 1) * max req.period (p + (u.prof n).cool) + p
        rw [hpulses, hprof, ← hperiod]
        refine ⟨?_, hfit, rfl, rfl⟩
        show Halved (fun j => (j - 1) * max req.period (p + (u.prof n).cool) + p ≤ 65535) _ _
        rw [hprof, ← hperiod]
        exact hdur

end Sys2Proof.Proofs
end

section
/-! Sensing: the arbiter's order, the results of conversions, the supply state and the heat decay pass (O23, O24,
O25, O27). -/

namespace Sys2Proof.Proofs
open Sys2Proof.Machine

/-! ### The first number of a bank that satisfies a test -/

theorem firstFin_eq_some_iff {n : Nat} {p : Fin n → Bool} {i : Fin n} :
    firstFin n p = some i ↔ p i = true ∧ ∀ j, j < i → p j = false := by
  unfold firstFin
  rw [List.find?_eq_some_iff_getElem]
  constructor
  · rintro ⟨hp, k, hk, hget, hbefore⟩
    rw [List.getElem_finRange] at hget
    obtain rfl := hget.symm
    refine ⟨hp, fun j hj => ?_⟩
    have := hbefore j.val hj
    rw [List.getElem_finRange] at this
    simpa using this
  · rintro ⟨hp, hbefore⟩
    refine ⟨hp, i.val, by simp, by simp, fun j hj => ?_⟩
    rw [List.getElem_finRange]
    simpa using hbefore ⟨j, by omega⟩ hj

theorem firstFin_eq_none_iff {n : Nat} {p : Fin n → Bool} : firstFin n p = none ↔ ∀ j, p j = false := by
  unfold firstFin
  rw [List.find?_eq_none]
  constructor
  · intro h j
    simpa using h j (List.mem_finRange j)
  · intro h j _
    simp [h j]

/-! ### The arbiter (R29, R30) -/

/-- The converter handed on, by the things that wait for it. -/
theorem serve_served (sc : Sense) : Served sc sc.serve := by
  refine ⟨?busy, ?overdue, ?current, ?supply⟩
  case busy =>
    intro h
    rw [Sense.serve, if_pos (Option.isSome_iff_ne_none.mpr h)]
  case overdue =>
    intro hfree hwait
    rw [Sense.serve, hfree, if_neg (by simp), if_pos hwait]
    rfl
  case current =>
    intro n phase hfree hwait hn hbefore
    have hfirst : firstFin 16 (fun n => (sc.waitCurrent.get n).isSome) = some n :=
      firstFin_eq_some_iff.mpr ⟨by rw [hn]; rfl, fun m hm => by rw [hbefore m hm]; rfl⟩
    rw [Sense.serve, hfree, if_neg (by simp), if_neg hwait, hfirst]
    simp only [hn]
    rfl
  case supply =>
    intro hfree hwait hnone
    have hfirst : firstFin 16 (fun n => (sc.waitCurrent.get n).isSome) = none :=
      firstFin_eq_none_iff.mpr fun m => by rw [hnone m]; rfl
    rw [Sense.serve, hfree, if_neg (by simp), if_neg hwait, hfirst]
    rfl

/-- Handing the converter on moves what waits and what is converted, and nothing else. -/
theorem serve_eq (sc : Sense) :
    sc.serve = { sc with
      waitSupply := sc.serve.waitSupply, waitCurrent := sc.serve.waitCurrent, conv := sc.serve.conv } := by
  unfold Sense.serve Sense.startSupply
  repeat' split
  all_goals rfl

theorem serve_last (sc : Sense) : sc.serve.last = sc.last := by rw [serve_eq]
theorem serve_supplyState (sc : Sense) : sc.serve.supplyState = sc.supplyState := by rw [serve_eq]
theorem serve_lowCount (sc : Sense) : sc.serve.lowCount = sc.lowCount := by rw [serve_eq]
theorem serve_goodCount (sc : Sense) : sc.serve.goodCount = sc.goodCount := by rw [serve_eq]

/-! ### Current conversions and requests (R21, R22, R29, R35) -/

/-- The result of an open check, on a station whose converter record is at hand. -/
theorem openCheckResult_eq (s : State) (sc : Sense) (n : Out) (phase : Tick) (i : Nat) :
    openCheckResult { s with sc := sc } n phase i =
      if (s.ch n).state = .power ∧ (s.ch n).powerStart = phase then
        { withChan s n { s.ch n with
            openPending := false
            openCount := if i < (s.prof n).openThreshold then min 3 ((s.ch n).openCount + 1) else 0 } with
          sc := sc }
      else
        { s with
          cs := { s.cs with
            chan := s.cs.chan.set n { s.ch n with openPending := false }
            unchecked := min 65535 (s.cs.unchecked + 1) }
          sc := sc } := by
  unfold openCheckResult
  refine congrArg (ite _ · _) ?_
  have hcount : Channel.checked (s.ch n) (decide (i < (s.prof n).openThreshold)) = { s.ch n with
      openPending := false
      openCount := if i < (s.prof n).openThreshold then min 3 ((s.ch n).openCount + 1) else 0 } := by
    by_cases h : i < (s.prof n).openThreshold <;> simp [Channel.checked, satAdd, h]
  show { withChan s n (Channel.checked (s.ch n) (decide (i < (s.prof n).openThreshold))) with sc := sc } = _
  rw [hcount]

/-- Settles O23: the converter is handed on, and the result goes to its own POWER phase or is counted. -/
theorem currentResultIsUsedOrUnchecked : Obligations.CurrentResultIsUsedOrUnchecked := by
  intro s raw n phase left h
  refine ⟨_, serve_served _, ?_⟩
  show execCurrentConversionEnd raw s = _
  unfold execCurrentConversionEnd
  rw [h]
  dsimp only
  rw [openCheckResult_eq, serve_last]
  rfl

/-- Settles O24: a request or a reading is placed, and the arbiter hands a free converter on. -/
theorem converterRequestsAreServedInOrder : Obligations.ConverterRequestsAreServedInOrder := by
  constructor
  case left =>
    intro s n due ⟨hstate, hcheck, hdue⟩
    refine ⟨_, serve_served _, ?_⟩
    show execOpenCheckRequest n s = _
    unfold execOpenCheckRequest
    dsimp only
    rw [hcheck]
    dsimp only
    rw [if_pos ⟨hstate, hdue⟩]
    cases (s.sc.waitCurrent.get n).isSome <;> rfl
  case right =>
    intro s h
    have hfalls : s.falls .supplySlot = true := List.contains_iff_mem.mpr h
    have hplace : s.sc.waitSupply.place = if s.sc.waitSupply = .none then .waiting else .overdue := by
      cases s.sc.waitSupply <;> rfl
    refine ⟨_, serve_served _, ?_⟩
    show execSupplySlot s = _
    rw [execSupplySlot, if_pos hfalls, ← hplace]
    rfl

/-! ### Supply readings (R32–R34) -/

/-- The counts of R33 read the state and the two counts alone. -/
theorem supplyCounts_eq (sc : Sense) (under v : Nat) :
    supplyCounts sc under v = { sc with
      supplyState := (supplyAfter sc under v).1
      lowCount := (supplyAfter sc under v).2.1
      goodCount := (supplyAfter sc under v).2.2 } := by
  obtain ⟨supply, state, low, good, last, waitSupply, waitCurrent, conv⟩ := sc
  cases state with
  | normal =>
    simp only [supplyCounts, supplyAfter]
    by_cases hlow : under ≤ v
    · simp [hlow, Nat.not_lt.mpr hlow]
    · by_cases hthird : low = 2
      · simp [hlow, hthird, Nat.not_le.mp hlow]
      · simp [hlow, hthird, Nat.not_le.mp hlow]
  | low =>
    simp only [supplyCounts, supplyAfter]
    by_cases hlow : under + 20 ≤ v
    · by_cases hthird : good = 2
      · simp [hlow, hthird, Nat.not_lt.mpr hlow]
      · simp [hlow, hthird, Nat.not_lt.mpr hlow]
    · simp [hlow, Nat.not_le.mp hlow]

theorem supplyAfter_congr {a b : Sense} (hs : a.supplyState = b.supplyState) (hl : a.lowCount = b.lowCount)
    (hg : a.goodCount = b.goodCount) (u v : Nat) : supplyAfter a u v = supplyAfter b u v := by
  simp only [supplyAfter, hs, hl, hg]

theorem clampTo_small {hi n : Nat} (h : n ≤ hi) : clampTo hi (n : Int) = n := by
  rw [clampTo, Int.toNat_natCast]
  exact Nat.min_eq_right h

theorem exec_supplyReadingEnd_unconfigured {s : State} {left : Nat} (raw : BitVec 10)
    (h : Pre.supplyUnconfigured s left) :
    exec (.supplyReadingEnd raw) s = .next { s with sc := { Sense.serve { s.sc with conv := none } with
      supply := clampTo 1023 (raw.toNat + s.cfg.station.offset) } } := by
  obtain ⟨hconv, hstation⟩ := h
  show execSupplyReadingEnd raw s = _
  unfold execSupplyReadingEnd
  rw [hconv]
  exact if_pos hstation

/-- Settles O25: the reading is set, the counts follow it, and a return to NORMAL brings a selection. -/
theorem supplyReadingMovesTheSupplyState : Obligations.SupplyReadingMovesTheSupplyState := by
  refine ⟨?configured, ?unconfigured, ?blank⟩
  case configured =>
    intro s raw left ⟨hconv, hstation⟩
    refine ⟨_, serve_served _, ?_⟩
    let v := clampTo 1023 (raw.toNat + s.cfg.station.offset)
    have hafter (u : Nat) : supplyAfter { s.sc.free with supply := v } u v = supplyAfter s.sc u v :=
      supplyAfter_congr (serve_supplyState _) (serve_lowCount _) (serve_goodCount _) u v
    show execSupplyReadingEnd raw s = _
    unfold execSupplyReadingEnd
    rw [hconv]
    dsimp only
    rw [if_neg hstation, supplyCounts_eq, hafter]
    show (if s.sc.free.supplyState = .low ∧ _ then _ else _) = _
    have hfree : s.sc.free.supplyState = s.sc.supplyState := serve_supplyState _
    rw [hfree, apply_ite Host.Outcome.next]
    rfl
  case unconfigured =>
    intro s raw left h
    exact ⟨_, serve_served _, exec_supplyReadingEnd_unconfigured raw h⟩
  case blank =>
    intro s raw left hsettings h
    refine ⟨_, serve_served _, ?_⟩
    have hview : s.viewing = false := by simp [State.viewing, h.2]
    have hoffset : s.cfg.station.offset = 0 := by rw [hsettings hview]; rfl
    have hraw : raw.toNat ≤ 1023 := by have := raw.isLt; omega
    rw [exec_supplyReadingEnd_unconfigured raw h, hoffset, Int.add_zero, clampTo_small hraw]

/-! ### Heat decay (R44) -/

theorem decayLowers_iff (s : State) :
    s.decayLowers = true ↔ ∃ n, 0 < (s.ch n).heat ∧ 0 < (s.prof n).heatDecay := by
  simp only [State.decayLowers, List.any_eq_true, List.mem_finRange, true_and, Bool.and_eq_true,
    decide_eq_true_eq]

/-- Settles O27: every heat is lowered, and a selection follows where one was. -/
theorem heatDecaysOnEveryPass : Obligations.HeatDecaysOnEveryPass := by
  constructor
  case left =>
    intro s hfall hsome
    have hfalls : s.falls .heatDecay = true := List.contains_iff_mem.mpr hfall
    have hlowers : (s.take .heatDecay).decayLowers = true := (decayLowers_iff s).mpr hsome
    show execHeatDecayPass s = _
    rw [execHeatDecayPass, if_pos hfalls]
    exact if_pos hlowers
  case right =>
    intro s hfall hnone
    have hfalls : s.falls .heatDecay = true := List.contains_iff_mem.mpr hfall
    have hlowers : ¬ (s.take .heatDecay).decayLowers = true := by
      refine fun h => ?_
      obtain ⟨n, hheat, hdecay⟩ := (decayLowers_iff s).mp h
      obtain h | h := hnone n <;> omega
    show execHeatDecayPass s = _
    rw [execHeatDecayPass, if_pos hfalls]
    exact if_neg hlowers

end Sys2Proof.Proofs
end

section
/-! Trips of the comparators (O28), and the draw budget's view: heard frames, heard claims, standing draws, ageing,
expiry and refresh (O29, O30, O31, O32). -/

namespace Sys2Proof.Proofs
open Sys2Proof.Machine

/-! ### Trips (R20, R84) -/

theorem exec_fastTrip (n : Out) (current : Nat) (s : State) :
    exec (.fastTrip n current) s = if Pre.trip s n current then .next (toFault s n .short) else .next s := rfl

/-- A flipper that is found for an output drives it. -/
theorem drives_of_flipperOf {cfg : Settings} {n : Out} {f : Flip} (h : cfg.flipperOf n = some f) :
    (cfg.flippers.get f).drives n = true := (firstFin_eq_some_iff.mp h).1

theorem flipTrips_iff {s : State} {f : Flip} {n : Out} (h : s.cfg.flipperOf n = some f) (current : Nat) :
    s.flipTrips f n current = true ↔ Pre.flipTrip s f n current := by
  have hdrives := drives_of_flipperOf h
  cases hstate : (s.fl.get f).state <;>
    simp [State.flipTrips, State.flipArmed, Pre.flipTrip, hdrives, hstate, h, and_assoc, and_comm, and_left_comm]

/-- A flipper that is up is taken down and disabled by a trip. -/
theorem rest_disabled {r : Flipper} (h : r.state ≠ .rest) : { r.rest with disabled := true } = flipDisabled r := by
  rw [Flipper.rest, if_neg h]
  rfl

theorem state_ne_rest_of_flipTrip {s : State} {f : Flip} {n : Out} {current : Nat}
    (h : Pre.flipTrip s f n current) : (s.fl.get f).state ≠ .rest := by
  obtain ⟨-, -, -, h | h | ⟨h, -⟩⟩ := h <;> simp [h]

/-- The first trip of a flipper that is up faults the output, disables the flipper and takes it to REST. -/
theorem flipperFault_eq {s : State} {f : Flip} {n m : Out} {i : Fin 63} {current : Nat}
    (h : Pre.flipTrip s f m current) (hown : Pre.number s.own i) :
    flipperFault s f n =
      faultTaken { s with fl := s.fl.set f (flipDisabled (s.fl.get f)) } i n .short 1 := by
  have hset : s.setFlip f { (s.fl.get f).rest with disabled := true } =
      { s with fl := s.fl.set f (flipDisabled (s.fl.get f)) } := by
    rw [State.setFlip, rest_disabled (state_ne_rest_of_flipTrip h)]
  unfold flipperFault
  dsimp only
  rw [hset]
  exact toFault_eq (s := { s with fl := s.fl.set f (flipDisabled (s.fl.get f)) }) hown .short

theorem toFault_fl (s : State) (n : Out) (kind : FaultKind) : (toFault s n kind).fl = s.fl := by
  have h := coilWork_toFault s n kind
  unfold CoilWork at h
  rw [h]

/-- A second trip of the same instant finds the flipper down and disabled already. -/
theorem flipperFault_again {s : State} {f : Flip} {n m : Out} {i : Fin 63} {current : Nat}
    (h : Pre.flipTrip s f n current) (hown : Pre.number s.own i) :
    flipperFault (flipperFault s f n) f m =
      faultTaken (faultTaken { s with fl := s.fl.set f (flipDisabled (s.fl.get f)) } i n .short 1) i m .short 1 := by
  let u : State := { s with fl := s.fl.set f (flipDisabled (s.fl.get f)) }
  have hfirst : flipperFault s f n = toFault u n .short := by
    rw [flipperFault_eq h hown]
    exact (toFault_eq (s := u) hown .short).symm
  have hget : (toFault u n .short).fl.get f = flipDisabled (s.fl.get f) := by
    rw [toFault_fl]
    exact Bank.get_set_self _ _ _
  have hsame : (toFault u n .short).setFlip f
      { ((toFault u n .short).fl.get f).rest with disabled := true } = toFault u n .short := by
    have hrest : { (flipDisabled (s.fl.get f)).rest with disabled := true } = flipDisabled (s.fl.get f) := rfl
    rw [State.setFlip, hget, hrest, ← hget, Bank.set_get]
  have hown' : Pre.number (toFault u n .short).own i := by
    rw [(coilWork_toFault u n .short).own]
    exact hown
  rw [hfirst, flipperFault]
  rw [hsame, toFault_eq hown' .short, toFault_eq (s := u) hown .short]
  rfl

/-- A trip of one output alone. -/
theorem exec_flipperTrip_alone {s : State} {f : Flip} {n : Out} (h : s.cfg.flipperOf n = some f) (current : Nat) :
    exec (.flipperTrip n current none) s =
      .next (if s.flipTrips f n current then flipperFault s f n else s) := by
  show execFlipperTrip n current none s = _
  unfold execFlipperTrip
  rw [h]
  dsimp only
  cases (s.cfg.flippers.get f).other n <;> rfl

theorem other_of_windings {s : State} {f : Flip} {n m : Out} (h : Pre.windings s f n m) :
    (s.cfg.flippers.get f).other n = some m := by
  obtain ⟨hne, ⟨hpower, hhold⟩ | ⟨hhold, hpower⟩⟩ := h
  · rw [FlipSettings.other, if_pos hpower, hhold]
  · rw [FlipSettings.other, if_neg (by rw [hpower]; exact hne.symm), hpower]

/-- A trip of both windings, one after the other. -/
theorem exec_flipperTrip_both {s : State} {f : Flip} {n m : Out} (h : s.cfg.flipperOf n = some f)
    (hw : Pre.windings s f n m) (current other : Nat) :
    exec (.flipperTrip n current (some other)) s =
      .next (let t := if s.flipTrips f n current then flipperFault s f n else s
        if s.flipTrips f m other then flipperFault t f m else t) := by
  show execFlipperTrip n current (some other) s = _
  unfold execFlipperTrip
  rw [h]
  dsimp only
  rw [other_of_windings hw]
  dsimp only
  exact (apply_ite Host.Outcome.next _ _ _).symm

/-- Settles O28: an armed comparator above its level faults its output, and no other does. -/
theorem tripsFaultTheOutput : Obligations.TripsFaultTheOutput := by
  refine ⟨?fast, ?fastNot, ?flipper, ?both, ?flipperNot, ?oneOfTwo⟩
  case fast =>
    intro s n i current h hown
    rw [exec_fastTrip, if_pos h, toFault_eq (i := i) hown]
    rfl
  case fastNot =>
    intro s n current h
    rw [exec_fastTrip, if_neg h]
  case flipper =>
    intro s f n i current h hown
    rw [exec_flipperTrip_alone h.1, if_pos ((flipTrips_iff h.1 current).mpr h), flipperFault_eq h hown]
  case both =>
    intro s f n m i current other h hm hw hown
    rw [exec_flipperTrip_both h.1 hw]
    simp only [if_pos ((flipTrips_iff h.1 current).mpr h), if_pos ((flipTrips_iff hm.1 other).mpr hm),
      flipperFault_again h hown]
  case flipperNot =>
    intro s n current h
    cases hflip : s.cfg.flipperOf n with
    | none =>
      show execFlipperTrip n current none s = _
      rw [execFlipperTrip, hflip]
    | some f => rw [exec_flipperTrip_alone hflip, if_neg (fun ht => h f ((flipTrips_iff hflip current).mp ht))]
  case oneOfTwo =>
    intro s f n m i current other hw hn hm hown
    rw [exec_flipperTrip_both hn hw]
    refine ⟨fun h h' => ?_, fun h h' => ?_, fun h h' => ?_⟩
    · simp only [if_neg (fun ht => h ((flipTrips_iff hn current).mp ht)),
        if_neg (fun ht => h' ((flipTrips_iff hm other).mp ht))]
    · simp only [if_pos ((flipTrips_iff hn current).mpr h),
        if_neg (fun ht => h' ((flipTrips_iff hm other).mp ht)), flipperFault_eq h hown]
    · simp only [if_neg (fun ht => h ((flipTrips_iff hn current).mp ht)),
        if_pos ((flipTrips_iff hm other).mpr h'), flipperFault_eq h' hown]

/-! ### Heard frames (R50, R155, R156) -/

theorem decideLink_eq (before : LinkState) (tec rec : Nat) :
    decideLink before tec rec = linkStateAt before tec rec := by
  by_cases hsilent : 192 ≤ tec <;> by_cases hpassive : 96 ≤ tec ∨ 96 ≤ rec <;> cases before <;>
    simp [decideLink, linkStateAt, Config.silentAt, Config.passiveAt, hsilent, hpassive]

/-- The link after a frame of another station. -/
theorem heard_lc (s : State) (src : BitVec 6) :
    (received s src).lc = { s.lc with
      phase := .interframe, recRun := 0, rx := none, REC := s.lc.REC - 1
      state := linkStateAt s.lc.state s.lc.TEC (s.lc.REC - 1) } := by
  rw [received_lc, ← decideLink_eq]
  rfl

theorem standingIdx_eq_some_iff {b : BitVec 6} {i : Fin 63} : standingIdx b = some i ↔ b.toNat = i.val := by
  refine ⟨fun h => ?_, standingIdx_of⟩
  unfold standingIdx at h
  split at h
  · cases h; rfl
  · cases h

/-- A frame renews its own source's record alone, where DB keeps a view and the source is another station. -/
theorem heardFrom_standing_get (s : State) (src : BitVec 6) (i : Fin 63) :
    (heardFrom s src).db.standing.get i =
      if s.viewing = true ∧ src.toNat = i.val ∧ src ≠ s.own then
        { s.db.standing.get i with lastHeard := s.tick, present := true }
      else s.db.standing.get i := by
  unfold heardFrom
  by_cases h : s.viewing = true ∧ src ≠ s.own
  · rw [if_pos h]
    obtain ⟨hv, hne⟩ := h
    cases hidx : standingIdx src with
    | none =>
      rw [if_neg]
      rintro ⟨-, hsrc, -⟩
      rw [standingIdx_of hsrc] at hidx
      cases hidx
    | some j =>
      have hj := standingIdx_eq_some_iff.mp hidx
      dsimp only
      rw [Bank.get_set]
      by_cases hij : i = j
      · subst hij
        rw [if_pos rfl, if_pos ⟨hv, hj, hne⟩]
      · rw [if_neg hij, if_neg]
        rintro ⟨-, hsrc, -⟩
        exact hij (Fin.ext (by omega))
  · rw [if_neg h, if_neg fun hr => h ⟨hr.1, hr.2.2⟩]

theorem received_standing_get (s : State) (src : BitVec 6) (i : Fin 63) :
    (received s src).db.standing.get i =
      if s.viewing = true ∧ src.toNat = i.val ∧ src ≠ s.own then
        { s.db.standing.get i with lastHeard := s.tick, present := true }
      else s.db.standing.get i :=
  heardFrom_standing_get { s with lc := s.lc.frameOver.countReceive } src i

theorem exec_heardFrame {s : State} (kind : BitVec 5) (f : Heard) (h : s.canReceive = true) :
    exec (.heardFrame kind f) s = .next (heard s f) := if_pos h

theorem heard_db (s : State) (src : BitVec 6) :
    (received s src).db = { s.db with standing := (received s src).db.standing } := by
  rw [received_eq]

theorem received_frame (s : State) (src : BitVec 6) :
    received s src = { s with lc := (received s src).lc, db := (received s src).db } := by
  rw [received_eq]

/-- Settles O29: what a heard frame is, part by part. -/
theorem heardFramesRenewTheirSource : Obligations.HeardFramesRenewTheirSource := by
  intro s kind f hrx
  refine ⟨_, exec_heardFrame kind f hrx, rfl, received_frame s _, heard_db s _, heard_lc s _, fun i h => ?_,
    fun i h => ?_⟩
  · rw [received_standing_get, if_pos h]
  · rw [received_standing_get, if_neg]
    rintro ⟨hview, hsrc, hown⟩
    obtain h | h | h := h
    · simp [hview] at h
    · exact h hsrc
    · exact hown h

/-! ### Heard claims (R46, R48, R52, R59) -/

theorem viewTotal_eq (s : State) : s.db.viewTotal = viewOf s := by
  unfold Budget.viewTotal viewOf
  rw [items_eq_map_get s.db.standing, List.map_map]
  rfl

theorem claimFieldsOk_iff (f : Heard) : claimFieldsOk f = true ↔ ClaimFields f := by
  rw [claimFieldsOk, decide_eq_true_eq]
  exact ⟨fun ⟨hlen, hlow, hhigh, hout, hdraw, hdraw', hdur, hsource⟩ =>
      ⟨hlen, ⟨hlow, hhigh⟩, hout, ⟨hdraw, hdraw'⟩, hdur, hsource⟩,
    fun ⟨hlen, ⟨hlow, hhigh⟩, hout, ⟨hdraw, hdraw'⟩, hdur, hsource⟩ =>
      ⟨hlen, hlow, hhigh, hout, hdraw, hdraw', hdur, hsource⟩⟩

theorem outOf_val (n : Out) : outOf n.val = some n := by
  rw [outOf, dif_pos n.isLt]

theorem exec_claimHeard {s : State} (f : Heard) (h : s.canReceive = true) :
    exec (.claimHeard f) s = .next (judgeClaim (heard s f) f) := if_pos h

/-- The entry to merge into goes before itself, is total and carries over: an order by rank (R48). -/
theorem mergesBefore_iff (now : Tick) (e x : DrawEntry) :
    MergesBefore now e x ↔ x.left now < e.left now ∨ x.left now = e.left now ∧
      (e.source.toNat < x.source.toNat ∨ e.source.toNat = x.source.toNat ∧
        (e.output.val < x.output.val ∨ e.output.val = x.output.val ∧
          (e.withdrawn.toNat < x.withdrawn.toNat ∨
            e.withdrawn.toNat = x.withdrawn.toNat ∧ e.draw ≤ x.draw))) := by
  have hw : (e.withdrawn = false ∧ x.withdrawn = true ∨ e.withdrawn = x.withdrawn ∧ e.draw ≤ x.draw) ↔
      (e.withdrawn.toNat < x.withdrawn.toNat ∨ e.withdrawn.toNat = x.withdrawn.toNat ∧ e.draw ≤ x.draw) := by
    cases e.withdrawn <;> cases x.withdrawn <;> simp
  simp only [MergesBefore, hw, BitVec.lt_def, ← BitVec.toNat_inj, Fin.lt_def, Fin.ext_iff]

theorem before_iff (now : Tick) (a b : DrawEntry) :
    a.before now b = true ↔ b.left now < a.left now ∨ a.left now = b.left now ∧
      (a.source.toNat < b.source.toNat ∨ a.source.toNat = b.source.toNat ∧
        (a.output.val < b.output.val ∨ a.output.val = b.output.val ∧
          (a.withdrawn.toNat < b.withdrawn.toNat ∨
            a.withdrawn.toNat = b.withdrawn.toNat ∧ a.draw < b.draw))) := by
  have hflag (w : Bool) : (if w = true then 1 else 0) = w.toNat := by cases w <;> rfl
  simp only [DrawEntry.before, decide_eq_true_eq, hflag, List.cons_lt_cons_iff, List.lt_irrefl, and_false, or_false]

theorem mergesBefore_of_before {now : Tick} {a b : DrawEntry} (h : a.before now b = true) :
    MergesBefore now a b := by
  rw [before_iff] at h
  rw [mergesBefore_iff]
  omega

theorem mergesBefore_of_not_before {now : Tick} {a b : DrawEntry} (h : ¬ a.before now b = true) :
    MergesBefore now b a := by
  rw [before_iff] at h
  rw [mergesBefore_iff]
  omega

theorem mergesBefore_trans {now : Tick} {a b c : DrawEntry} (h : MergesBefore now a b)
    (k : MergesBefore now b c) : MergesBefore now a c := by
  rw [mergesBefore_iff] at *
  omega

theorem mergesBefore_refl (now : Tick) (a : DrawEntry) : MergesBefore now a a := by
  rw [mergesBefore_iff]
  omega

/-- The entry chosen is one of the table's, and goes before every other (R48). -/
theorem mergeChoice_spec (now : Tick) (rest : List DrawEntry) :
    ∀ best, mergeChoice now best rest ∈ best :: rest ∧
      ∀ x ∈ best :: rest, MergesBefore now (mergeChoice now best rest) x := by
  induction rest with
  | nil =>
    intro best
    refine ⟨List.mem_cons_self, fun x hx => ?_⟩
    rw [List.mem_singleton.mp hx]
    exact mergesBefore_refl now best
  | cons e rest ih =>
    intro best
    unfold mergeChoice
    by_cases hbefore : e.before now best = true
    · rw [if_pos hbefore]
      obtain ⟨hmem, hfirst⟩ := ih e
      refine ⟨List.mem_cons_of_mem _ hmem, fun x hx => ?_⟩
      obtain rfl | hx := List.mem_cons.mp hx
      · exact mergesBefore_trans (hfirst e List.mem_cons_self) (mergesBefore_of_before hbefore)
      · exact hfirst x hx
    · rw [if_neg hbefore]
      obtain ⟨hmem, hfirst⟩ := ih best
      refine ⟨?_, fun x hx => ?_⟩
      · obtain h | h := List.mem_cons.mp hmem
        · rw [h]; exact List.mem_cons_self
        · exact List.mem_cons_of_mem _ (List.mem_cons_of_mem _ h)
      · obtain rfl | hx := List.mem_cons.mp hx
        · exact hfirst x List.mem_cons_self
        · obtain rfl | hx := List.mem_cons.mp hx
          · exact mergesBefore_trans (hfirst best List.mem_cons_self) (mergesBefore_of_not_before hbefore)
          · exact hfirst x (List.mem_cons_of_mem _ hx)

theorem replaceEntry_splits (old new : DrawEntry) (l : List DrawEntry) (h : old ∈ l) :
    ∃ before rest, l = before ++ old :: rest ∧ replaceEntry old new l = before ++ new :: rest := by
  induction l with
  | nil => cases h
  | cons e rest ih =>
    unfold replaceEntry
    by_cases he : e = old
    · exact ⟨[], rest, by rw [he]; rfl, if_pos he⟩
    · obtain ⟨before, after, hsplit, hreplace⟩ := ih ((List.mem_cons.mp h).resolve_left (Ne.symm he))
      exact ⟨e :: before, after, by rw [hsplit]; rfl, by rw [if_neg he, hreplace]; rfl⟩

theorem addEntry_of_full (now : Tick) (new : DrawEntry) (table : List DrawEntry) (h : table.length = 24) :
    ∃ before e rest, table = before ++ e :: rest ∧ (∀ x ∈ table, MergesBefore now e x) ∧
      addEntry now new table = before ++ { e with
        draw := min 4095 (e.draw + new.draw)
        expiry := if e.left now < new.left now then new.expiry else e.expiry
        withdrawn := e.withdrawn && new.withdrawn } :: rest := by
  cases table with
  | nil => cases h
  | cons first rest =>
    obtain ⟨hmem, hfirst⟩ := mergeChoice_spec now rest first
    obtain ⟨before, after, hsplit, hreplace⟩ := replaceEntry_splits _
      ((mergeChoice now first rest).merge now new) _ hmem
    refine ⟨before, _, after, hsplit, hfirst, ?_⟩
    rw [addEntry, if_neg (by rw [h]; decide)]
    exact hreplace

/-- Settles O30: a claim joins the view where it passes; a full table merges it. -/
theorem heardClaimsJoinTheView : Obligations.HeardClaimsJoinTheView := by
  refine ⟨?passes, ?unread, viewTotal_eq, fun now new table => ⟨fun h => if_pos h, addEntry_of_full now new table⟩⟩
  case passes =>
    intro s f n d duration ⟨hrx, hview, hlen, hprio, hsource, hout, hdraw, hdrawIn, hdur, hdurIn⟩
    have hfields : claimFieldsOk f = true :=
      (claimFieldsOk_iff f).mpr ⟨hlen, hprio, by have := n.isLt; omega, by rwa [hdraw], by rwa [hdur], hsource⟩
    rw [exec_claimHeard f hrx, judgeClaim, received_viewing, hview, hfields, hdraw, hout, outOf_val]
    simp only [true_and, budgetTest_iff, viewTotal_eq, hdur, received_tick, received_table]
    rfl
  case unread =>
    intro s f hrx h
    rw [exec_claimHeard f hrx, judgeClaim, if_neg]
    rw [received_viewing, claimFieldsOk_iff]
    rintro ⟨hview, hfields, -⟩
    obtain h | h := h
    · simp [hview] at h
    · exact h hfields

/-! ### Standing draws (R51, R53, R66) -/

/-- A STANDING frame that is read sets its source's record. -/
theorem exec_standingHeard {s : State} {f : Heard} {i : Fin 63} {d : Nat} (h : Pre.standing s f i d) :
    exec (.standingHeard f) s =
      (let t : State := { heard s f with db.standing := s.db.standing.set i ⟨d, s.tick, true⟩ }
      .next (if (s.db.standing.get i).present = true ∧ d < (s.db.standing.get i).draw then decreased t
        else t)) := by
  obtain ⟨hrx, hview, hsource, hown, hlen, rfl⟩ := h
  have hread : (received s f.source).viewing = true ∧ f.source ≠ (received s f.source).own ∧
      2 ≤ f.payload.length := by
    rw [received_viewing, received_own]
    exact ⟨hview, hown, hlen⟩
  show execStandingHeard f s = _
  rw [execStandingHeard, if_pos hrx]
  dsimp only
  rw [if_pos hread, standingIdx_of hsource]
  dsimp only
  rw [standingSet, received_standing_set s hsource, received_tick]
  rfl

theorem exec_standingHeard_unread {s : State} {f : Heard} (hrx : s.canReceive = true)
    (h : s.viewing = false ∨ f.payload.length < 2 ∨ f.source = s.own ∨ f.source = 63) :
    exec (.standingHeard f) s = .next (heard s f) := by
  show execStandingHeard f s = _
  rw [execStandingHeard, if_pos hrx]
  dsimp only
  split
  next hread =>
    rw [received_viewing, received_own] at hread
    obtain ⟨hview, hown, hlen⟩ := hread
    obtain h | h | h | h := h
    · simp [hview] at h
    · omega
    · exact absurd h hown
    · have hidx : standingIdx f.source = none := by rw [h]; rfl
      rw [hidx]
  next => rfl

/-- Settles O31: the record is set; a fall is a view decrease. -/
theorem standingFramesSetTheRecord : Obligations.StandingFramesSetTheRecord := by
  refine ⟨?rises, ?falls, fun s f hrx h => exec_standingHeard_unread hrx h⟩
  case rises =>
    intro s f i d h hnot
    rw [exec_standingHeard h]
    exact congrArg _ (if_neg hnot)
  case falls =>
    intro s f i d h hpresent hless
    rw [exec_standingHeard h]
    exact congrArg _ (if_pos ⟨hpresent, hless⟩)

/-! ### Ageing, expiry and refresh (R47, R51, R65) -/

theorem ageDue_iff (s : State) (i : Fin 63) : s.ageDue i = true ↔ Pre.ageing s i := by
  simp only [State.ageDue, Bool.and_eq_true, decide_eq_true_eq, and_assoc]
  exact Iff.rfl

theorem exec_ageingOut {s : State} {i : Fin 63} (h : Pre.ageing s i) :
    exec (.ageingOut i) s = .next (decreased { s with
      db.standing := s.db.standing.set i { s.db.standing.get i with draw := 0, present := false } }) :=
  if_pos ((ageDue_iff s i).mpr h)

theorem coilWork_decreased (s : State) : CoilWork s (decreased s) := coilWork_viewDecrease s

theorem decreased_standing (s : State) : (decreased s).db.standing = s.db.standing :=
  selectLoop_standing _ _

/-- A record aged out, as the ageing leaves it. -/
theorem standing_of_agedOut {s t : State} {i : Fin 63} (h : Pre.ageing s i)
    (hexec : exec (.ageingOut i) s = .next t) :
    t.db.standing.get i = { s.db.standing.get i with draw := 0, present := false } ∧ t.sl = s.sl := by
  rw [exec_ageingOut h, Host.Outcome.next.injEq] at hexec
  rw [← hexec, decreased_standing, coilWork_decreased]
  exact ⟨Bank.get_set_self _ _ _, rfl⟩

/-- The refresh timer that runs out, as the conditions of R65. -/
theorem refreshDue_iff (s : State) : s.refreshDue = true ↔ ∃ due, Pre.refresh s due := by
  cases hrefresh : s.db.refresh with
  | none => simp [State.refreshDue, hrefresh, Pre.refresh]
  | some due => simp [State.refreshDue, hrefresh, Pre.refresh, and_assoc]

/-- Settles O32: a record aged out, one that is not, and the frames after it; entries that expire; the refresh. -/
theorem theViewAgesAndExpires : Obligations.TheViewAgesAndExpires := by
  refine ⟨fun s i => exec_ageingOut, ?kept, ?standingAfter, ?frameAfter, ?expiry, ?refresh⟩
  case kept =>
    intro s i h
    refine if_neg fun hdue => ?_
    obtain ⟨-, hpresent, hown, hage⟩ := (ageDue_iff s i).mp hdue
    obtain h | h | h | h := h
    · exact hown h
    · simp [hpresent] at h
    · omega
    · rw [h, BitVec.sub_self] at hage
      exact absurd hage (by decide)
  case standingAfter =>
    intro s t f i d h hexec hstanding
    obtain ⟨hrecord, -⟩ := standing_of_agedOut h hexec
    exact standingFramesSetTheRecord.1 t f i d hstanding (by rw [hrecord]; simp)
  case frameAfter =>
    intro s t kind f i h hexec hrx hsource
    obtain ⟨hrecord, hsl⟩ := standing_of_agedOut h hexec
    obtain ⟨hview, -, hown, -⟩ := h
    refine ⟨_, exec_heardFrame kind f hrx, ?_⟩
    have hview' : t.viewing = true := by rw [State.viewing, hsl]; exact hview
    have hown' : f.source ≠ t.own := by
      rintro heq
      rw [heq, State.own, hsl] at hsource
      exact hown hsource
    rw [received_standing_get, if_pos ⟨hview', hsource, hown'⟩, hrecord]
  case expiry =>
    intro s h
    exact if_pos (List.any_eq_true.mpr h)
  case refresh =>
    intro s due h
    have hdue := (refreshDue_iff s).mpr ⟨due, h⟩
    obtain ⟨-, -, hrun, hnormal⟩ := h
    show execRefreshExpiry s = _
    rw [execRefreshExpiry, if_pos hdue, announceStanding, if_pos ⟨hrun, hnormal⟩]
    rfl

end Sys2Proof.Proofs
end

section
/-! What every operation keeps of the bounds and of the transmit slots (O3, O5): the link controller's part. -/

namespace Sys2Proof.Proofs
open Sys2Proof.Machine

/-! ### The slots and their kinds of frame (R147, R148) -/

/-- A kind of frame that the shared slots and the outgoing queue may hold. -/
def SharedKind (k : BitVec 5) : Prop := k ≠ 0 ∧ k ≠ 3

/-- Slot `i` may hold a frame of kind `k`. -/
def SlotTakes (i : Fin 4) (k : BitVec 5) : Prop :=
  (i = 0 → k = 3) ∧ (i = 1 → k = 0) ∧ (2 ≤ i.val → SharedKind k)

/-- Each slot, and the outgoing queue, holds its own kinds of frame. -/
def KindsSound (lc : Link) : Prop :=
  (∀ i, ∀ sl ∈ lc.slots.get i, SlotTakes i sl.frame.kind) ∧ ∀ f ∈ lc.outq, SharedKind f.kind

/-- The claim in flight is clear exactly while slot 0 is empty (R56). -/
def Paired (s : State) : Prop := s.db.claim = none ↔ s.lc.slots.get 0 = none

/-- The bounds of the link controller (R148, R149, R155). -/
def LinkBounded (lc : Link) : Prop :=
  lc.outq.length ≤ 8 ∧ lc.TEC ≤ 255 ∧ lc.REC ≤ 255 ∧ lc.txDrop ≤ 65535

theorem slotTakes_zero (k : BitVec 5) : SlotTakes 0 k ↔ k = 3 := by simp [SlotTakes]

theorem slotTakes_one (k : BitVec 5) : SlotTakes 1 k ↔ k = 0 := by simp [SlotTakes]

theorem slotTakes_shared {i : Fin 4} (h : 2 ≤ i.val) (k : BitVec 5) : SlotTakes i k ↔ SharedKind k := by
  have h0 : i ≠ 0 := by rintro rfl; exact absurd h (by decide)
  have h1 : i ≠ 1 := by rintro rfl; exact absurd h (by decide)
  simp [SlotTakes, h, h0, h1]

theorem slot_cases (i : Fin 4) : i = 0 ∨ i = 1 ∨ 2 ≤ i.val := by
  omega

theorem slotsSound_iff (s : State) : SlotsSound s ↔ Paired s ∧ KindsSound s.lc := by
  unfold SlotsSound Paired KindsSound
  constructor
  · rintro ⟨hpaired, hclaim, hbeat, hshared, hqueue⟩
    refine ⟨hpaired, fun i sl hsl => ?_, hqueue⟩
    obtain rfl | rfl | hi := slot_cases i
    · exact (slotTakes_zero _).mpr (hclaim sl hsl)
    · exact (slotTakes_one _).mpr (hbeat sl hsl)
    · exact (slotTakes_shared hi _).mpr (hshared i hi sl hsl)
  · rintro ⟨hpaired, hslots, hqueue⟩
    exact ⟨hpaired, fun sl hsl => (slotTakes_zero _).mp (hslots 0 sl hsl),
      fun sl hsl => (slotTakes_one _).mp (hslots 1 sl hsl),
      fun i hi sl hsl => (slotTakes_shared hi _).mp (hslots i sl hsl), hqueue⟩

theorem kinds_set {lc : Link} (h : KindsSound lc) (i : Fin 4) {x : Option Slot}
    (hx : ∀ sl ∈ x, SlotTakes i sl.frame.kind) : KindsSound { lc with slots := lc.slots.set i x } := by
  refine ⟨fun j sl hsl => ?_, h.2⟩
  rw [Bank.get_set] at hsl
  split at hsl
  case isTrue hj =>
    subst hj
    exact hx sl hsl
  case isFalse => exact h.1 j sl hsl

theorem kinds_empty {lc : Link} (h : KindsSound lc) (i : Fin 4) : KindsSound (lc.empty i) :=
  kinds_set h i (by simp)

theorem kinds_place {lc : Link} (h : KindsSound lc) {i : Fin 4} {f : Frame} (hf : SlotTakes i f.kind) :
    KindsSound (lc.place i f) :=
  kinds_set h i (by rintro sl ⟨rfl⟩; exact hf)

/-! ### What a change of the link controller keeps -/

/-- A change of the link controller that keeps the bounds, the kinds, and whether slot 0 is empty. -/
structure LinkTame (lc lc' : Link) : Prop where
  bounds : LinkBounded lc → LinkBounded lc'
  kinds : KindsSound lc → KindsSound lc'
  claim : lc'.slots.get 0 = none ↔ lc.slots.get 0 = none

theorem LinkTame.refl (lc : Link) : LinkTame lc lc := ⟨id, id, Iff.rfl⟩

theorem LinkTame.trans {a b c : Link} (h : LinkTame a b) (k : LinkTame b c) : LinkTame a c :=
  ⟨k.bounds ∘ h.bounds, k.kinds ∘ h.kinds, k.claim.trans h.claim⟩

/-- A change that leaves slots, queue, counts and the drop counter. -/
theorem linkTame_of_eq {lc lc' : Link} (hslots : lc'.slots = lc.slots) (hqueue : lc'.outq = lc.outq)
    (htec : lc'.TEC = lc.TEC) (hrec : lc'.REC = lc.REC) (hdrop : lc'.txDrop = lc.txDrop) : LinkTame lc lc' := by
  refine ⟨fun h => ?_, fun h => ?_, by rw [hslots]⟩
  · unfold LinkBounded
    rw [hqueue, htec, hrec, hdrop]
    exact h
  · unfold KindsSound
    rw [hslots, hqueue]
    exact h

/-- A slot's frame set to one that the slot may hold; slot 0 stays as full as it was. -/
theorem linkTame_set {lc : Link} {i : Fin 4} {x : Option Slot}
    (hx : KindsSound lc → ∀ sl ∈ x, SlotTakes i sl.frame.kind)
    (h0 : i = 0 → (x = none ↔ lc.slots.get 0 = none)) : LinkTame lc { lc with slots := lc.slots.set i x } := by
  refine ⟨id, fun h => kinds_set h i (hx h), ?_⟩
  show (lc.slots.set i x).get 0 = none ↔ _
  rw [Bank.get_set]
  split
  case isTrue hi => exact h0 hi.symm
  case isFalse => exact Iff.rfl

theorem linkTame_place {lc : Link} {i : Fin 4} {f : Frame} (hi : i ≠ 0) (hf : SlotTakes i f.kind) :
    LinkTame lc (lc.place i f) :=
  linkTame_set (fun _ => by rintro sl ⟨rfl⟩; exact hf) (fun h => absurd h hi)

theorem linkTame_empty {lc : Link} {i : Fin 4} (hi : i ≠ 0) : LinkTame lc (lc.empty i) :=
  linkTame_set (fun _ => by simp) (fun h => absurd h hi)

/-- The slot that a frame occupies is kept full by another state of the same frame's kind. -/
theorem linkTame_reslot {lc : Link} {i : Fin 4} {sl sl' : Slot} (h : lc.slots.get i = some sl)
    (hk : sl'.frame.kind = sl.frame.kind) : LinkTame lc { lc with slots := lc.slots.set i (some sl') } := by
  refine linkTame_set (fun hkinds => ?_) ?_
  · rintro _ ⟨rfl⟩
    rw [hk]
    exact hkinds.1 i sl h
  · rintro rfl
    simp [h]

theorem linkTame_replaceSlot (lc : Link) (i : Fin 4) (f : Frame) : LinkTame lc (lc.replaceSlot i f) := by
  unfold Link.replaceSlot
  split
  case h_1 sl h => exact linkTame_reslot h rfl
  case h_2 => exact .refl lc

theorem replaceFirst_kinds (f : Frame) {P : BitVec 5 → Prop} (l : List Frame) (h : ∀ g ∈ l, P g.kind) :
    ∀ g ∈ replaceFirst f l, P g.kind := by
  induction l with
  | nil => exact h
  | cons x rest ih =>
    obtain ⟨hx, hrest⟩ := List.forall_mem_cons.mp h
    unfold replaceFirst
    split
    · exact List.forall_mem_cons.mpr ⟨hx, hrest⟩
    · exact List.forall_mem_cons.mpr ⟨hx, ih hrest⟩

/-- Handing a frame of a shared kind is tame (R148). -/
theorem linkTame_hand (lc : Link) {f : Frame} (hf : SharedKind f.kind) : LinkTame lc (lc.hand f) := by
  have hplace (i : Fin 4) (hi : 2 ≤ i.val) : LinkTame lc (lc.place i f) :=
    linkTame_place (by rintro rfl; exact absurd hi (by decide)) ((slotTakes_shared hi _).mpr hf)
  unfold Link.hand
  split
  · exact .refl lc
  split
  · exact linkTame_replaceSlot lc 2 f
  split
  · exact linkTame_replaceSlot lc 3 f
  split
  · refine ⟨fun ⟨hq, hrest⟩ => ⟨by rwa [replaceFirst_length], hrest⟩, fun ⟨hslots, hq⟩ => ⟨hslots, ?_⟩, Iff.rfl⟩
    exact replaceFirst_kinds f _ hq
  split
  · exact hplace 2 (by decide)
  split
  · exact hplace 3 (by decide)
  split
  next hroom =>
    refine ⟨fun ⟨_, hrest⟩ => ⟨?_, hrest⟩, fun ⟨hslots, hq⟩ => ⟨hslots, ?_⟩, Iff.rfl⟩
    · rw [Config.outQueueSize] at hroom
      rw [List.length_append, List.length_singleton]
      omega
    · exact List.forall_mem_append.mpr ⟨hq, by simpa using hf⟩
  next => exact ⟨fun ⟨hq, htec, hrec, _⟩ => ⟨hq, htec, hrec, bump_le _⟩, id, Iff.rfl⟩

theorem linkTame_handAll (frames : List Frame) (h : ∀ f ∈ frames, SharedKind f.kind) (lc : Link) :
    LinkTame lc (frames.foldl Link.hand lc) := by
  induction frames generalizing lc with
  | nil => exact .refl lc
  | cons f rest ih =>
    obtain ⟨hf, hrest⟩ := List.forall_mem_cons.mp h
    exact (linkTame_hand lc hf).trans (ih hrest _)

/-- The head of the queue moved into a shared slot (R149). -/
theorem linkTame_fill (lc : Link) {i : Fin 4} (hi : 2 ≤ i.val) : LinkTame lc (lc.fill i) := by
  unfold Link.fill
  split
  case h_1 f rest hslot hqueue =>
    refine ⟨fun ⟨hq, hrest⟩ => ⟨?_, hrest⟩, fun h => ?_, ?_⟩
    · rw [hqueue, List.length_cons] at hq
      show rest.length ≤ 8
      omega
    · have hkinds := h.2
      rw [hqueue] at hkinds
      obtain ⟨hf, hrest⟩ := List.forall_mem_cons.mp hkinds
      exact ⟨(kinds_place h ((slotTakes_shared hi _).mpr hf)).1, hrest⟩
    · show (lc.slots.set i _).get 0 = none ↔ _
      rw [Bank.get_set_ne]
      rintro rfl
      exact absurd hi (by decide)
  case h_2 => exact .refl lc

theorem linkTame_refill (lc : Link) : LinkTame lc lc.refill :=
  (linkTame_fill lc (by decide)).trans (linkTame_fill _ (by decide))

theorem ne_zero_of_shared {i : Fin 4} (hi : 2 ≤ i.val) : i ≠ 0 := by
  rintro rfl
  exact absurd hi (by decide)

/-- A shared slot's frame returned, or discarded for a newer one (R150, R152). -/
theorem linkTame_returnShared {lc : Link} {i : Fin 4} {sl : Slot} (hi : 2 ≤ i.val)
    (h : lc.slots.get i = some sl) (fails : Nat) : LinkTame lc (lc.returnShared i sl fails) := by
  unfold Link.returnShared
  split
  · exact (linkTame_empty (ne_zero_of_shared hi)).trans (linkTame_refill _)
  · exact linkTame_reslot h rfl

theorem linkTame_emptied {lc : Link} {i : Fin 4} (hi : i ≠ 0) : LinkTame lc (lc.emptied i) := by
  unfold Link.emptied
  split
  · exact linkTame_empty hi
  · exact (linkTame_empty hi).trans (linkTame_refill _)

/-- Slot 0 emptied: the rest of the link controller is as tame as before. -/
theorem kinds_emptied {lc : Link} (h : KindsSound lc) : KindsSound (lc.emptied 0) := kinds_empty h 0

/-! ### Counts and phases (R132, R137, R142, R155) -/

theorem linkTame_withCounts (lc : Link) {tec rec : Nat}
    (h : LinkBounded lc → tec ≤ 255 ∧ rec ≤ 255) : LinkTame lc (lc.withCounts tec rec) :=
  ⟨fun hb => ⟨hb.1, (h hb).1, (h hb).2, hb.2.2.2⟩, id, Iff.rfl⟩

theorem linkTame_countTransmitError (lc : Link) (kind : ErrKind) : LinkTame lc (lc.countTransmitError kind) := by
  unfold Link.countTransmitError
  split
  · exact .refl lc
  · exact .refl lc
  · exact linkTame_withCounts lc fun ⟨_, _, hrec, _⟩ => ⟨satAdd_le _ _ _, hrec⟩

theorem linkTame_countTransmit (lc : Link) : LinkTame lc lc.countTransmit := by
  unfold Link.countTransmit
  split
  · exact .refl lc
  · exact linkTame_withCounts lc fun ⟨_, htec, hrec, _⟩ => ⟨by omega, hrec⟩

theorem linkTame_countReceiveError (lc : Link) : LinkTame lc lc.countReceiveError :=
  linkTame_withCounts lc fun ⟨_, htec, _, _⟩ => ⟨htec, satAdd_le _ _ _⟩

theorem linkTame_countReceive (lc : Link) : LinkTame lc lc.countReceive :=
  linkTame_withCounts lc fun ⟨_, htec, hrec, _⟩ => ⟨htec, by omega⟩

theorem linkTame_frameOver (lc : Link) : LinkTame lc lc.frameOver := ⟨id, id, Iff.rfl⟩

theorem linkTame_errorOver (lc : Link) : LinkTame lc lc.errorOver := by
  unfold Link.errorOver
  split
  · split
    · exact .refl lc
    · exact ⟨id, id, Iff.rfl⟩
  · exact .refl lc

theorem linkTame_signal (lc : Link) : LinkTame lc lc.signal := by
  unfold Link.signal
  split <;> exact ⟨id, id, Iff.rfl⟩

theorem linkTame_signalBit (lc : Link) : LinkTame lc lc.signalBit := by
  unfold Link.signalBit
  split <;> exact ⟨id, id, Iff.rfl⟩

theorem linkTame_recover (lc : Link) (b : Bool) : LinkTame lc (lc.recover b) := by
  unfold Link.recover
  repeat' split
  all_goals exact ⟨id, id, Iff.rfl⟩

theorem linkTame_settle (lc : Link) (b : Bool) : LinkTame lc (lc.settle b).1 := by
  unfold Link.settle
  repeat' split
  all_goals exact ⟨id, id, Iff.rfl⟩

/-! ### The STOP pattern and the entry to SILENT (R153, R158) -/

theorem linkTame_cutShort (lc : Link) {i : Fin 4} (hi : i ≠ 0) : LinkTame lc (lc.cutShort i) := by
  unfold Link.cutShort
  split
  case h_1 sl h =>
    split
    · split
      · exact linkTame_empty hi
      · exact linkTame_returnShared (by omega) h _
    · exact .refl lc
  case h_2 => exact .refl lc

/-- Slots 1, 2 and 3 cut short. -/
theorem linkTame_cutOthers (lc : Link) : LinkTame lc (((lc.cutShort 1).cutShort 2).cutShort 3) :=
  ((linkTame_cutShort lc (by decide)).trans (linkTame_cutShort _ (by decide))).trans
    (linkTame_cutShort _ (by decide))

theorem kinds_cleared (lc : Link) : KindsSound lc.cleared :=
  ⟨fun i sl hsl => by simp [Link.cleared] at hsl, fun f hf => by cases hf⟩

theorem linkBounded_cleared {lc : Link} (h : LinkBounded lc) : LinkBounded lc.cleared :=
  ⟨Nat.zero_le _, h.2⟩

end Sys2Proof.Proofs
end

section
/-! What every operation keeps of the bounds, of the slots, and of the station and play states that last until a
reset (O3, O5, O6): the operations. -/

namespace Sys2Proof.Proofs
open Sys2Proof.Machine

/-! ### The bounds, block by block -/

def ChannelBounded (c : Channel) : Prop := c.heat ≤ 65535 ∧ c.openCount ≤ 3 ∧ c.holdTimeouts ≤ 255

def CoilsBounded (cs : Coils) : Prop :=
  cs.busyDrop ≤ 65535 ∧ cs.waitDrop ≤ 65535 ∧ cs.unchecked ≤ 65535 ∧ ∀ n, ChannelBounded (cs.chan.get n)

def BudgetBounded (db : Budget) : Prop := db.table.length ≤ 24 ∧ db.deny ≤ 65535

/-- The bounds of the switches, the router, play control and the lamp controller. -/
def OthersBounded (s : State) : Prop :=
  s.sw.stuckCount ≤ 65535 ∧ s.er.unmatched ≤ 65535 ∧ s.er.badCommand ≤ 65535 ∧ s.pc.tiltDrop ≤ 65535 ∧
    s.lp.phase ≤ 319 ∧ s.lp.pos ≤ 14

theorem bounded_iff (s : State) :
    Bounded s ↔ CoilsBounded s.cs ∧ BudgetBounded s.db ∧ LinkBounded s.lc ∧ OthersBounded s := by
  constructor
  · rintro ⟨htable, hqueue, htec, hrec, hbusy, hwait, hunchecked, hdeny, hstuck, hdrop, hunmatched, hbad, htilt,
      hchan, hphase, hpos⟩
    exact ⟨⟨hbusy, hwait, hunchecked, hchan⟩, ⟨htable, hdeny⟩, ⟨hqueue, htec, hrec, hdrop⟩, hstuck, hunmatched,
      hbad, htilt, hphase, hpos⟩
  · rintro ⟨⟨hbusy, hwait, hunchecked, hchan⟩, ⟨htable, hdeny⟩, ⟨hqueue, htec, hrec, hdrop⟩, hstuck, hunmatched,
      hbad, htilt, hphase, hpos⟩
    exact ⟨htable, hqueue, htec, hrec, hbusy, hwait, hunchecked, hdeny, hstuck, hdrop, hunmatched, hbad, htilt,
      hchan, hphase, hpos⟩

/-- RUN, UNCONFIGURED and SLAM are not left. -/
def Stays (s t : State) : Prop :=
  (s.sl.station = .run → t.sl.station = .run) ∧ (s.sl.station = .unconfigured → t.sl.station = .unconfigured) ∧
    (s.pc.state = .slam → t.pc.state = .slam)

theorem Stays.refl (s : State) : Stays s s := ⟨id, id, id⟩

theorem Stays.trans {s t u : State} (h : Stays s t) (k : Stays t u) : Stays s u :=
  ⟨k.1 ∘ h.1, k.2.1 ∘ h.2.1, k.2.2 ∘ h.2.2⟩

/-- A change of the station that keeps every bound, the slots and their kinds, and what only a reset ends. -/
structure Tame (s t : State) : Prop where
  coils : CoilsBounded s.cs → CoilsBounded t.cs
  budget : BudgetBounded s.db → BudgetBounded t.db
  link : LinkBounded s.lc → LinkBounded t.lc
  others : OthersBounded s → OthersBounded t
  slots : SlotsSound s → SlotsSound t
  stays : Stays s t

theorem Tame.refl (s : State) : Tame s s := ⟨id, id, id, id, id, .refl s⟩

theorem Tame.trans {s t u : State} (h : Tame s t) (k : Tame t u) : Tame s u :=
  ⟨k.coils ∘ h.coils, k.budget ∘ h.budget, k.link ∘ h.link, k.others ∘ h.others, k.slots ∘ h.slots,
    h.stays.trans k.stays⟩

theorem Tame.bounded {s t : State} (h : Tame s t) (hs : Bounded s) : Bounded t := by
  rw [bounded_iff] at *
  obtain ⟨hcoils, hbudget, hlink, hothers⟩ := hs
  exact ⟨h.coils hcoils, h.budget hbudget, h.link hlink, h.others hothers⟩

/-- Tame steps taken one for each item of a list. -/
theorem tame_foldl {α : Type} (f : State → α → State) (h : ∀ s x, Tame s (f s x)) (l : List α) :
    ∀ s, Tame s (l.foldl f s) := by
  induction l with
  | nil => exact .refl
  | cons x rest ih => exact fun s => (h s x).trans (ih _)

/-! ### One block changed -/

/-- A change that leaves coils, budget, link and counters, and the station and play states. -/
theorem tame_of_eq {s t : State} (hcs : t.cs = s.cs) (hdb : t.db = s.db) (hlc : t.lc = s.lc) (hsw : t.sw = s.sw)
    (her : t.er = s.er) (hlp : t.lp = s.lp) (hpc : t.pc = s.pc) (hsl : t.sl = s.sl) : Tame s t := by
  refine ⟨?_, ?_, ?_, ?_, ?_, ?_⟩
  · rw [hcs]; exact id
  · rw [hdb]; exact id
  · rw [hlc]; exact id
  · unfold OthersBounded; rw [hsw, her, hpc, hlp]; exact id
  · unfold SlotsSound; rw [hdb, hlc]; exact id
  · unfold Stays; rw [hsl, hpc]; exact ⟨id, id, id⟩

theorem tame_cs {s : State} {cs : Coils} (h : CoilsBounded s.cs → CoilsBounded cs) : Tame s { s with cs := cs } :=
  ⟨h, id, id, id, id, .refl s⟩

/-- A change of the budget unit that leaves the claim in flight. -/
theorem tame_db {s : State} {db : Budget} (h : BudgetBounded s.db → BudgetBounded db)
    (hclaim : db.claim = none ↔ s.db.claim = none) : Tame s { s with db := db } := by
  refine ⟨id, h, id, id, fun hs => ?_, .refl s⟩
  rw [slotsSound_iff] at *
  exact ⟨hclaim.trans hs.1, hs.2⟩

theorem tame_lc {s : State} {lc : Link} (h : LinkTame s.lc lc) : Tame s { s with lc := lc } := by
  refine ⟨id, id, h.bounds, id, fun hs => ?_, .refl s⟩
  rw [slotsSound_iff] at *
  obtain ⟨hpaired, hkinds⟩ := hs
  exact ⟨Iff.trans hpaired h.claim.symm, h.kinds hkinds⟩

/-- A lamp controller whose beat phase and position keep their bounds. -/
theorem tame_lp {s : State} {lp : Lamps} (h : s.lp.phase ≤ 319 → lp.phase ≤ 319)
    (k : s.lp.pos ≤ 14 → lp.pos ≤ 14) : Tame s { s with lp := lp } :=
  ⟨id, id, id, fun ⟨hstuck, hunmatched, hbad, htilt, hphase, hpos⟩ =>
    ⟨hstuck, hunmatched, hbad, htilt, h hphase, k hpos⟩, id, .refl s⟩

theorem tame_updCh (s : State) (n : Out) (f : Channel → Channel)
    (h : ChannelBounded (s.ch n) → ChannelBounded (f (s.ch n))) : Tame s (s.updCh n f) := by
  refine tame_cs fun ⟨hbusy, hwait, hunchecked, hchan⟩ => ⟨hbusy, hwait, hunchecked, fun m => ?_⟩
  show ChannelBounded ((s.updCh n f).ch m)
  rw [updCh_ch]
  split
  · exact h (hchan n)
  · exact hchan m

/-- Every channel changed in a way that keeps its bounds. -/
theorem tame_mapIdx {s : State} (f : Out → Channel → Channel) (queue : List Entry)
    (h : ∀ n c, ChannelBounded c → ChannelBounded (f n c)) :
    Tame s { s with cs := { s.cs with chan := s.cs.chan.mapIdx f, queue := queue } } := by
  refine tame_cs fun ⟨hbusy, hwait, hunchecked, hchan⟩ => ⟨hbusy, hwait, hunchecked, fun n => ?_⟩
  rw [Bank.get_mapIdx]
  exact h n _ (hchan n)

theorem tame_queue (s : State) (queue : List Entry) : Tame s { s with cs := { s.cs with queue := queue } } :=
  tame_cs id

theorem tame_hand (s : State) {f : Frame} (h : SharedKind f.kind) : Tame s (s.hand f) :=
  tame_lc (linkTame_hand _ h)

theorem tame_busyDropped (s : State) : Tame s s.busyDropped :=
  tame_cs fun h => ⟨bump_le _, h.2⟩

theorem tame_waitDropped (s : State) : Tame s s.waitDropped :=
  tame_cs fun ⟨hbusy, _, hrest⟩ => ⟨hbusy, bump_le _, hrest⟩

theorem tame_uncheckedPhase (s : State) : Tame s s.uncheckedPhase :=
  tame_cs fun ⟨hbusy, hwait, _, hchan⟩ => ⟨hbusy, hwait, bump_le _, hchan⟩

theorem tame_addDraw (s : State) (e : DrawEntry) : Tame s (s.addDraw e) :=
  tame_db (fun h => ⟨addEntry_length _ _ _ h.1, h.2⟩) Iff.rfl

theorem tame_denied (s : State) : Tame s s.denied := tame_db (fun h => ⟨h.1, bump_le _⟩) Iff.rfl

/-- The counters of the router and of play control. -/
theorem tame_countUnmatched (s : State) : Tame s s.countUnmatched :=
  ⟨id, id, id, fun h => ⟨h.1, bump_le _, h.2.2⟩, id, .refl s⟩

theorem tame_countBad (s : State) : Tame s s.countBad :=
  ⟨id, id, id, fun ⟨hstuck, hunmatched, _, hrest⟩ => ⟨hstuck, hunmatched, bump_le _, hrest⟩, id, .refl s⟩

theorem tame_tiltDrop (s : State) : Tame s { s with pc := { s.pc with tiltDrop := bump s.pc.tiltDrop } } :=
  ⟨id, id, id, fun ⟨hstuck, hunmatched, hbad, _, hrest⟩ => ⟨hstuck, hunmatched, hbad, bump_le _, hrest⟩, id,
    .refl s⟩

/-! ### Claims and slot 0 (R12, R56, R58, R63) -/

/-- A claim and slot 0 cleared together. -/
theorem slots_of_cleared {s t : State} (hs : SlotsSound s) (hclaim : t.db.claim = none)
    (hlink : t.lc = s.lc.empty 0) : SlotsSound t := by
  rw [slotsSound_iff] at *
  refine ⟨?_, by rw [hlink]; exact kinds_empty hs.2 0⟩
  unfold Paired
  rw [hlink, hclaim]
  simp [Link.empty]

theorem tame_placeClaim (s : State) (e : Entry) : Tame s (placeClaim s e) := by
  have hcoils := ((tame_queue s _).trans (tame_updCh (s.updEntry e.output Entry.claimed) e.output
    (·.figures (s.claimOf e).t (s.claimOf e).draw) id)).coils
  refine ⟨hcoils, id, id, id, fun hs => ?_, .refl s⟩
  rw [slotsSound_iff] at *
  refine ⟨?_, kinds_place hs.2 ((slotTakes_zero _).mpr rfl)⟩
  unfold Paired placeClaim
  simp [Link.place]

theorem tame_grant (s : State) (c : Claim) (at_ : Tick) : Tame s (grant s c at_) :=
  (tame_queue s _).trans (tame_updCh _ _ _ fun h => ⟨satAdd_le _ _ _, h.2⟩)

theorem tame_deny (s : State) (n : Out) : Tame s (deny s n) := (tame_queue s _).trans (tame_denied _)

theorem tame_decide (s : State) (c : Claim) (at_ : Tick) : Tame s (decide_ s c at_) := by
  unfold decide_
  split
  · split
    · exact tame_addDraw s _
    · exact (tame_addDraw s _).trans (tame_grant _ c at_)
  · split
    · exact .refl s
    · exact tame_deny s _

theorem tame_selectLoop (k : Nat) : ∀ s, Tame s (selectLoop k s) := by
  induction k with
  | zero => exact .refl
  | succ k ih =>
    intro s
    unfold selectLoop
    split
    · exact .refl s
    split
    · exact .refl s
    split
    · exact (tame_decide s _ _).trans (ih _)
    · exact tame_placeClaim s _

theorem tame_select (s : State) : Tame s (select s) := tame_selectLoop _ s

theorem tame_viewDecrease (s : State) : Tame s (viewDecrease s) := (tame_queue s _).trans (tame_select _)

theorem tame_withdrawClaim (s : State) (n : Out) : Tame s (withdrawClaim s n) := by
  unfold withdrawClaim
  split
  case h_2 => exact .refl s
  case h_1 c hclaim =>
    split
    case isFalse => exact .refl s
    split
    case h_1 sl hslot =>
      split
      · exact tame_db id (by simp [hclaim])
      · exact ⟨id, id, id, id, fun hs => slots_of_cleared hs rfl rfl, .refl s⟩
    case h_2 hslot =>
      refine ⟨id, id, id, id, fun hs => ?_, .refl s⟩
      rw [slotsSound_iff] at *
      exact ⟨⟨fun _ => hslot, fun _ => rfl⟩, hs.2⟩

theorem tame_dequeue (s : State) (n : Out) : Tame s (dequeue s n) :=
  (tame_queue s _).trans (tame_withdrawClaim _ n)

theorem tame_enqueue (s : State) (n : Out) (burst : Bool) (override : Option Nat) :
    Tame s (enqueue s n burst override) :=
  ((tame_updCh s n _ id).trans (tame_queue _ _)).trans (tame_select _)

/-! ### The own standing draw (R64, R65) -/

theorem sharedKind_iff (k : BitVec 5) : SharedKind k ↔ k ≠ 0 ∧ k ≠ 3 := Iff.rfl

theorem sharedKind_standing (own : BitVec 6) (d : Nat) : SharedKind (standingFrame own d).kind :=
  (sharedKind_iff 4).mpr (by decide)

theorem sharedKind_event (own : BitVec 6) (prio : BitVec 3) (sw : Nat) (close : Bool) (code : Byte) :
    SharedKind (eventFrame own prio sw close code).kind := (sharedKind_iff 8).mpr (by decide)

theorem sharedKind_fault (own : BitVec 6) (n : Out) (kind : FaultKind) : SharedKind (faultFrame own n kind).kind :=
  (sharedKind_iff 5).mpr (by decide)

theorem sharedKind_status (own : BitVec 6) (page part : Nat) (contents : List Byte) :
    SharedKind (statusFrame own page part contents).kind := (sharedKind_iff 6).mpr (by decide)

theorem sharedKind_noPage (own : BitVec 6) (page : Nat) : SharedKind (noPageFrame own page).kind :=
  (sharedKind_iff 6).mpr (by decide)

theorem sharedKind_play (own : BitVec 6) (k : PlayFrame) : SharedKind (playFrame own k).kind := by
  have htilt : SharedKind 1 := (sharedKind_iff 1).mpr (by decide)
  have hgame : SharedKind 2 := (sharedKind_iff 2).mpr (by decide)
  cases k
  · exact htilt
  · exact htilt
  · exact hgame
  · exact hgame

theorem tame_setOwnDraw (s : State) (d : Nat) : Tame s (s.setOwnDraw d) := by
  unfold State.setOwnDraw
  split
  · exact tame_db id Iff.rfl
  · exact .refl s

theorem tame_announce (s : State) : Tame s (announceStanding s) := by
  unfold announceStanding
  split
  · exact (tame_hand s (sharedKind_standing _ _)).trans (tame_db id Iff.rfl)
  · exact .refl s

theorem tame_updateStanding (s : State) : Tame s (updateStanding s) := by
  have h := (tame_setOwnDraw s s.holdSum).trans (tame_announce _)
  unfold updateStanding
  split
  · exact .refl s
  split
  · exact h.trans (tame_viewDecrease _)
  · exact h

/-! ### The phases of an output (Chapters 1 and 5) -/

theorem tame_toCool (s : State) (n : Out) : Tame s (toCool s n) := tame_updCh s n _ id

theorem tame_toOff (s : State) (n : Out) : Tame s (toOff s n) := tame_updCh s n _ id

theorem tame_endTrain (s : State) (n : Out) : Tame s (endTrain s n) := by
  unfold endTrain
  split
  · exact .refl s
  split
  · exact ((tame_updCh s n _ id).trans (tame_toOff _ n)).trans (tame_hand _ (sharedKind_event _ _ _ _ _))
  · exact (tame_updCh s n _ id).trans (tame_toOff _ n)

theorem tame_coolOver (s : State) (n : Out) : Tame s (coolOver s n) := by
  unfold coolOver
  split
  · exact (tame_updCh s n _ id).trans (tame_enqueue _ _ _ _)
  · exact (tame_updCh s n _ id).trans (tame_toOff _ n)

theorem tame_burstCoolOver (s : State) (n : Out) (tr : Train) : Tame s (burstCoolOver s n tr) := by
  unfold burstCoolOver
  split
  · exact tame_endTrain s n
  · exact (tame_updCh s n _ id).trans (tame_enqueue _ _ _ _)

theorem tame_coolIfZero (s : State) (n : Out) : Tame s (coolIfZero s n) := by
  unfold coolIfZero
  split
  · split
    · exact tame_coolOver s n
    · exact tame_burstCoolOver s n _
  · exact .refl s

theorem tame_coolFrom (s : State) (n : Out) : Tame s (coolFrom s n) :=
  (tame_toCool s n).trans (tame_coolIfZero _ n)

theorem tame_leaveHold (s : State) (n : Out) : Tame s (leaveHold s n) :=
  ((tame_toCool s n).trans (tame_updateStanding _)).trans (tame_coolIfZero _ n)

theorem tame_enterHold (s : State) (n : Out) : Tame s (enterHold s n) :=
  (tame_updCh s n _ id).trans (tame_updateStanding _)

theorem tame_toFault (s : State) (n : Out) (kind : FaultKind) : Tame s (toFault s n kind) :=
  (((tame_updCh s n _ id).trans (tame_dequeue _ n)).trans (tame_hand _ (sharedKind_fault _ _ _))).trans
    (tame_updateStanding _)

/-! ### Requests (R4) -/

theorem tame_fireRequest (s : State) (n : Out) (override : Option Nat) : Tame s (fireRequest s n override) := by
  unfold fireRequest
  dsimp only
  split
  · exact tame_enqueue s n _ _
  · exact tame_busyDropped s
  · exact .refl s
  split
  · exact tame_busyDropped s
  split
  · exact tame_updCh s n _ id
  · exact (tame_updCh s n _ id).trans (tame_busyDropped _)

theorem tame_holdAfterPower (s : State) (n : Out) : Tame s (holdAfterPower s n) :=
  (tame_updCh s n _ id).trans (tame_enterHold _ n)

theorem tame_holdRequest (s : State) (n : Out) : Tame s (holdRequest s n) := by
  have hwant : Tame s (s.updCh n (·.want true)) := tame_updCh s n _ id
  unfold holdRequest
  dsimp only
  split
  · split
    · exact tame_holdAfterPower s n
    · exact hwant.trans (tame_enqueue _ n _ _)
  · exact tame_busyDropped s
  · exact .refl s
  · exact tame_updCh s n _ id
  · split
    · exact tame_busyDropped s
    split
    · exact tame_holdAfterPower s n
    · exact hwant
  · split
    · exact tame_busyDropped s
    · exact hwant

theorem tame_releaseRequest (s : State) (n : Out) : Tame s (releaseRequest s n) := by
  unfold releaseRequest
  split
  · exact .refl s
  · exact tame_busyDropped s
  · exact .refl s
  · exact (tame_updCh s n _ id).trans (tame_leaveHold _ n)
  · exact tame_updCh s n _ id

theorem tame_trainAddition (s : State) (n : Out) (tr : Train) (req : TrainReq) :
    Tame s (trainAddition s n tr req) := by
  unfold trainAddition
  split
  · exact tame_busyDropped s
  extract_lets t
  have h : Tame s t := tame_updCh s n _ id
  split
  · exact h.trans (tame_busyDropped t)
  · exact h

theorem tame_trainRequest (s : State) (n : Out) (req : TrainReq) : Tame s (trainRequest s n req) := by
  unfold trainRequest
  dsimp only
  split
  · exact (tame_updCh s n _ id).trans (tame_enqueue _ n _ _)
  · exact tame_busyDropped s
  · exact .refl s
  split
  · exact tame_trainAddition s n _ req
  · exact tame_busyDropped s

theorem tame_gracefulStop (s : State) (n : Out) (tr : Train) : Tame s (gracefulStop s n tr) := by
  unfold gracefulStop
  extract_lets t
  have h : Tame s t := tame_updCh s n _ id
  split
  · exact ((h.trans (tame_dequeue t n)).trans (tame_endTrain _ n)).trans (tame_select _)
  · exact h.trans (tame_coolFrom t n)
  · exact h

theorem tame_cancelTrain (s : State) (n : Out) : Tame s (cancelTrain s n) := by
  unfold cancelTrain
  extract_lets t
  have h : Tame s t := tame_updCh s n _ id
  split
  · exact ((h.trans (tame_dequeue t n)).trans (tame_toOff _ n)).trans (tame_select _)
  · exact h.trans (tame_coolFrom t n)
  · exact h.trans (tame_coolFrom t n)
  · exact h

theorem tame_trainStopRequest (s : State) (n : Out) (cancel : Bool) : Tame s (trainStopRequest s n cancel) := by
  unfold trainStopRequest
  dsimp only
  split
  · exact tame_busyDropped s
  split
  · split
    · exact tame_cancelTrain s n
    · exact tame_gracefulStop s n _
  · exact .refl s

theorem tame_coilRequest (s : State) (n : Out) (r : Request) : Tame s (coilRequest s n r) := by
  unfold coilRequest
  split
  case isFalse => exact .refl s
  split
  case isFalse => exact tame_tiltDrop s
  case isTrue =>
    cases r with
    | fire override => exact tame_fireRequest s n override
    | hold => exact tame_holdRequest s n
    | release => exact tame_releaseRequest s n
    | train req => exact tame_trainRequest s n req
    | trainStop cancel => exact tame_trainStopRequest s n cancel

/-! ### Flippers (Chapter 4) -/

theorem tame_fl (s : State) (fl : Bank Flipper 4) : Tame s { s with fl := fl } := tame_of_eq rfl rfl rfl rfl rfl rfl rfl rfl

theorem tame_heatUp (s : State) (n : Out) (t : Nat) : Tame s (s.heatUp n t) :=
  tame_updCh s n _ fun h => ⟨satAdd_le _ _ _, h.2⟩

theorem tame_eosOpen (s : State) (f : Flip) : Tame s (eosOpen s f) := by
  unfold eosOpen
  dsimp only
  split
  · exact (tame_fl s _).trans (tame_heatUp _ _ _)
  · exact .refl s

theorem tame_flipperLevel (s : State) (sw : Sw) (closed : Bool) (f : Flip) :
    Tame s (flipperLevel s sw closed f) := by
  unfold flipperLevel
  dsimp only
  split
  case isFalse => exact .refl s
  split
  · split
    · unfold buttonClose
      split
      · exact (tame_fl s _).trans (tame_heatUp _ _ _)
      · exact .refl s
    · exact tame_fl s _
  split
  · split
    · unfold eosClose
      dsimp only
      split
      · exact tame_fl s _
      · exact .refl s
    · exact tame_eosOpen s f
  · exact .refl s

theorem tame_flippersLevel (s : State) (sw : Sw) (closed : Bool) : Tame s (flippersLevel s sw closed) :=
  tame_foldl _ (fun s f => tame_flipperLevel s sw closed f) _ s

theorem tame_flipperFault (s : State) (f : Flip) (n : Out) : Tame s (flipperFault s f n) :=
  (tame_fl s _).trans (tame_toFault _ n _)

theorem tame_clearOutput (s : State) (n : Out) : Tame s (clearOutput s n) := by
  have hclear (st : ChanState) : Tame s (s.updCh n (·.cleared st)) :=
    tame_updCh s n _ fun h => ⟨h.1, Nat.zero_le _, h.2.2⟩
  unfold clearOutput
  dsimp only
  split
  case isFalse => exact .refl s
  split
  case isFalse => exact hclear _
  split
  · split
    · exact (hclear .flipper).trans (tame_fl _ _)
    · exact hclear _
  · exact hclear _

/-! ### Play control and the table stop (Chapter 11) -/

theorem tame_gateOutput (s : State) (n : Out) : Tame s (gateOutput s n) := by
  unfold gateOutput
  extract_lets t cut
  have h : Tame s t := tame_updCh s n _ id
  have hcut : Tame s cut := by
    show Tame s (if _ then _ else _)
    split
    · exact h.trans (tame_toOff t n)
    · exact h.trans (tame_toCool t n)
  split
  · exact hcut
  · exact hcut
  · exact hcut
  · exact (h.trans (tame_dequeue t n)).trans (tame_toOff _ n)
  · exact h

theorem tame_gateOutputs (s : State) (old new : PlayState) : Tame s (gateOutputs s old new) := by
  refine (tame_foldl _ (fun t n => ?_) _ s).trans (tame_updateStanding _)
  split
  · exact tame_gateOutput t n
  · exact .refl t

theorem tame_darken (s : State) : Tame s (darkenTiltGroup s) := tame_lp id id

theorem tame_restFlippers (s : State) : Tame s (restFlippers s) := tame_fl s _

theorem tame_playEffects (s : State) (old new : PlayState) : Tame s (playEffects s old new) := by
  unfold playEffects
  extract_lets t u
  have ht : Tame s t := tame_gateOutputs s old new
  have hu : Tame s u := by
    show Tame s (if _ then _ else _)
    split
    · exact ht
    · exact ht.trans (tame_restFlippers t)
  split
  · exact hu.trans (tame_darken u)
  · exact hu

/-- No TILT or GAME frame ends SLAM (Table 11-1). -/
theorem next_slam (k : PlayFrame) : k.next .slam = .slam := by cases k <;> rfl

theorem tame_playState (s : State) (k : PlayFrame) (stopped : Bool) :
    Tame s { s with pc := { s.pc with state := k.next s.pc.state, stopped := stopped } } :=
  ⟨id, id, id, id, id, id, id, fun h => by show k.next s.pc.state = .slam; rw [h]; exact next_slam k⟩

theorem tame_playChange (s : State) (k : PlayFrame) : Tame s (playChange s k) := by
  unfold playChange
  split
  case isFalse => exact .refl s
  extract_lets old new stopped pc t
  have ht : Tame s t := tame_playState s k stopped
  split
  · split
    · exact ht
    · exact ht.trans (tame_select t)
  · exact (ht.trans (tame_playEffects t old new)).trans (tame_select _)

theorem tame_playFrameTaken (s : State) (kind : BitVec 5) (payload : List Byte) :
    Tame s (playFrameTaken s kind payload) := by
  unfold playFrameTaken
  split
  · exact tame_playChange s _
  · exact .refl s

theorem tame_raisePlay (s : State) (k : PlayFrame) : Tame s (raisePlay s k) := by
  have hhand : Tame s (s.hand (playFrame s.own k)) := tame_hand s (sharedKind_play _ k)
  unfold raisePlay
  dsimp only
  split
  · exact hhand.trans (tame_playChange _ k)
  · exact hhand

theorem tame_clearView (s : State) : Tame s (clearView s) :=
  tame_db (fun h => ⟨Nat.zero_le _, h.2⟩) Iff.rfl

theorem tame_stopCoils (s : State) : Tame s (stopCoils s) := by
  refine tame_mapIdx _ [] fun n c h => ?_
  split
  · unfold Channel.stop
    split <;> exact h
  · exact h

theorem tame_withdrawInFlight (s : State) : Tame s (withdrawInFlight s) := by
  unfold withdrawInFlight
  split
  · exact tame_withdrawClaim s _
  · exact .refl s

theorem tame_tableStop (s : State) : Tame s (tableStop s) := by
  have hstopped : Tame s { s with pc := { s.pc with stopped := true } } := ⟨id, id, id, id, id, .refl s⟩
  unfold tableStop
  split
  · extract_lets held pc t
    have ht : Tame s t := (((hstopped.trans (tame_stopCoils _)).trans (tame_withdrawInFlight _)).trans
      (tame_restFlippers _)).trans (tame_clearView _)
    split
    · exact ht.trans (tame_announce t)
    · exact ht
  split
  · exact tame_clearView s
  · exact .refl s

theorem tame_raiseStop (s : State) : Tame s (raiseStop s) := by
  unfold raiseStop
  split
  · exact tame_tableStop s
  split
  · exact tame_lc ⟨id, id, Iff.rfl⟩
  · exact .refl s

/-! ### Lamps, actions, events and commands (Chapters 7 and 10) -/

theorem tame_lampSet (s : State) (l : Lamp) (mode : LampMode) (b : Nat) (pattern : BitVec 16) :
    Tame s (lampSet s l mode b pattern) := by
  unfold lampSet
  split
  · exact tame_lp id id
  · exact .refl s

theorem tame_runAction (s : State) (a : Action) : Tame s (runAction s a) := by
  cases a with
  | notInUse => exact .refl s
  | fire n => exact tame_coilRequest s n _
  | hold n => exact tame_coilRequest s n _
  | release n => exact tame_coilRequest s n _
  | train n req => exact tame_coilRequest s n _
  | trainStop n cancel => exact tame_coilRequest s n _
  | lampSet l mode b pattern => exact tame_lampSet s l mode b pattern
  | raiseTilt => exact tame_raisePlay s _
  | raiseSlam => exact tame_raisePlay s _
  | tableStop => exact tame_raiseStop s
  | gameStart => exact tame_raisePlay s _
  | gameOver => exact tame_raisePlay s _

theorem tame_routeEvent (s : State) (source : BitVec 6) (payload : List Byte) :
    Tame s (routeEvent s source payload) := by
  unfold routeEvent
  split
  case isFalse => exact .refl s
  split
  · exact tame_countUnmatched s
  split
  · exact tame_runAction s _
  · exact tame_countUnmatched s

theorem sharedKind_statusFrames (s : State) (page : Nat) : ∀ f ∈ statusFrames s page, SharedKind f.kind := by
  unfold statusFrames
  split
  · intro f hf
    obtain ⟨⟨part, contents⟩, -, rfl⟩ := List.mem_map.mp hf
    exact sharedKind_status _ _ _ _
  · intro f hf
    rw [List.mem_singleton.mp hf]
    exact sharedKind_noPage _ _

theorem tame_clearOverflow (s : State) (page : Nat) : Tame s (clearOverflow s page) := by
  unfold clearOverflow
  split
  · split
    · exact tame_updCh s _ _ id
    · exact .refl s
  · exact .refl s

theorem clearOverflow_lc (s : State) (page : Nat) : (clearOverflow s page).lc = s.lc := by
  unfold clearOverflow
  split
  · split <;> rfl
  · rfl

theorem tame_answerQuery (s : State) (page : Nat) : Tame s (answerQuery s page) := by
  unfold answerQuery
  extract_lets lc t
  have ht : Tame s t ∧ t.lc = s.lc := by
    show Tame s (if _ then _ else _) ∧ State.lc (if _ then _ else _) = _
    split
    · exact ⟨.refl s, rfl⟩
    · exact ⟨tame_clearOverflow s page, clearOverflow_lc s page⟩
  obtain ⟨htame, hlc⟩ := ht
  refine htame.trans (tame_lc ?_)
  rw [hlc]
  exact linkTame_handAll _ (sharedKind_statusFrames s page) s.lc

theorem tame_runCommand (s : State) (c : Command) : Tame s (runCommand s c) := by
  cases c with
  | coil n r => exact tame_coilRequest s n r
  | lampSet l mode b pattern => exact tame_lampSet s l mode b pattern
  | clear n => exact tame_clearOutput s n
  | query page =>
    show Tame s (answerQuery (if 22 < page then s.countBad else s) page)
    split
    · exact (tame_countBad s).trans (tame_answerQuery _ page)
    · exact tame_answerQuery s page

theorem tame_received (s : State) (source : BitVec 6) : Tame s (received s source) := by
  have hlink : Tame s { s with lc := s.lc.frameOver.countReceive } :=
    tame_lc ((linkTame_frameOver _).trans (linkTame_countReceive _))
  rw [received_eq]
  exact hlink.trans (tame_db id Iff.rfl)

theorem tame_commandReceived (s : State) (k : CommandKind) (f : Heard) : Tame s (commandReceived s k f) := by
  unfold commandReceived
  split
  case isFalse => exact .refl s
  refine (tame_received s f.source).trans ?_
  unfold commandTaken
  split
  case isFalse => exact .refl _
  split
  · exact tame_runCommand _ _
  · exact tame_countBad _

/-! ### Switch edges (Chapter 6) -/

theorem tame_applyRule (s : State) (r : Rule) (sw : Sw) (close : Bool) : Tame s (applyRule s r sw close) := by
  unfold applyRule
  extract_lets t
  have ht : Tame s t := by
    show Tame s (match r.action with | some a => _ | none => _)
    split
    · exact tame_runAction s _
    · exact .refl s
  split
  · refine ht.trans ?_
    unfold ruleEvent
    split
    · exact .refl t
    · exact tame_hand t (sharedKind_event _ _ _ _ _)
  · exact ht

theorem tame_applyRules (s : State) (sw : Sw) (close : Bool) : Tame s (applyRules s sw close) :=
  tame_foldl _ (fun s r => tame_applyRule s r sw close) _ s

theorem tame_picks (s : State) (picks : Nat) : Tame s { s with picks := picks } :=
  tame_of_eq rfl rfl rfl rfl rfl rfl rfl rfl

theorem tame_edge (s : State) (sw : Sw) (close : Bool) : Tame s (edge s sw close) := by
  have hpart (s : State) (part : Option Rule) : Tame s (edgePart s part sw close) := by
    cases part with
    | some r => exact tame_applyRule s r sw close
    | none => exact tame_flippersLevel s sw close
  unfold edge
  split
  · exact (tame_picks s _).trans (tame_foldl _ hpart _ _)
  split
  · dsimp only
    split
    · exact ((tame_picks s _).trans (tame_applyRules _ sw close)).trans (tame_flippersLevel _ sw close)
    · exact ((tame_picks s _).trans (tame_flippersLevel _ sw close)).trans (tame_applyRules _ sw close)
  · exact (tame_applyRules s sw close).trans (tame_flippersLevel _ sw close)

end Sys2Proof.Proofs
end

section
/-! Every command keeps the bounds and the slots, and every one but a reset keeps RUN, UNCONFIGURED and SLAM
(O2's and O3's bounds, O5, O6). -/

namespace Sys2Proof.Proofs
open Sys2Proof.Machine

/-! ### The link controller's events (Chapters 8 and 9) -/

theorem offerFrame_eq (s : State) : offerFrame s = { s with lc := (offerFrame s).lc } := by
  unfold offerFrame
  repeat' split
  all_goals rfl

theorem linkTame_offerFrame (s : State) : LinkTame s.lc (offerFrame s).lc := by
  unfold offerFrame
  split
  · split
    case h_1 i _ sl h =>
      have hwire := linkTame_reslot (sl' := { sl with onWire := true }) h rfl
      exact ⟨hwire.bounds, hwire.kinds, hwire.claim⟩
    case h_2 => exact .refl _
  · exact .refl _

theorem tame_offerFrame (s : State) : Tame s (offerFrame s) := by
  rw [offerFrame_eq]
  exact tame_lc (linkTame_offerFrame s)

/-- The claim and slot 0 cleared together, the rest of the link changed as the bounds and kinds allow. -/
theorem tame_claimCleared {s : State} {lc : Link} (hbounds : LinkBounded s.lc → LinkBounded lc)
    (hkinds : KindsSound s.lc → KindsSound lc) (hslot : SlotsSound s → lc.slots.get 0 = none) :
    Tame s { s with db := { s.db with claim := none }, lc := lc } := by
  refine ⟨id, id, hbounds, id, fun hs => ?_, .refl s⟩
  have hempty := hslot hs
  rw [slotsSound_iff] at *
  exact ⟨⟨fun _ => hempty, fun _ => rfl⟩, hkinds hs.2⟩

theorem with_claim_none {s : State} (h : s.db.claim = none) (lc : Link) :
    { s with lc := lc } = { s with db := { s.db with claim := none }, lc := lc } := by
  rw [← h]

/-- A link changed with slot 0 emptied, and the claim in flight then decided. -/
theorem tame_decideClaim {s : State} {lc : Link} (hbounds : LinkBounded s.lc → LinkBounded lc)
    (hkinds : KindsSound s.lc → KindsSound lc) (hslot : SlotsSound s → lc.slots.get 0 = none) (at_ : Tick) :
    Tame s (decideClaim { s with lc := lc } at_) := by
  have hcleared := tame_claimCleared hbounds hkinds hslot
  unfold decideClaim
  split
  · exact hcleared.trans (tame_decide _ _ at_)
  · next h =>
      rw [with_claim_none h]
      exact hcleared

/-- The same with the claim cleared undecided. -/
theorem tame_clearClaim {s : State} {lc : Link} (hbounds : LinkBounded s.lc → LinkBounded lc)
    (hkinds : KindsSound s.lc → KindsSound lc) (hslot : SlotsSound s → lc.slots.get 0 = none) :
    Tame s (clearClaim { s with lc := lc }) := by
  have hcleared := tame_claimCleared hbounds hkinds hslot
  unfold clearClaim
  split
  · dsimp only
    split
    · exact hcleared
    · exact hcleared.trans (tame_queue _ _)
  · next h =>
      rw [with_claim_none h]
      exact hcleared

theorem get_empty (lc : Link) (i : Fin 4) : (lc.empty i).slots.get i = none := Bank.get_set_self _ _ _

theorem tame_arbitrationEnd {s : State} {i : Fin 4} {sl : Slot} (h : s.lc.slots.get i = some sl) :
    Tame s (arbitrationEnd s i sl) := by
  have hwaiting : Tame s { s with lc := { s.lc with slots := s.lc.slots.set i (some { sl with onWire := false }) } } :=
    tame_lc (linkTame_reslot h rfl)
  unfold arbitrationEnd
  dsimp only
  split
  · split
    · split
      · exact (tame_claimCleared (lc := s.lc.empty 0) id (fun hk => kinds_empty hk 0) fun _ => get_empty _ 0).trans
          (tame_select _)
      · exact hwaiting
    · exact hwaiting
  next h0 =>
    split
    · exact hwaiting
    next h1 => exact tame_lc (linkTame_returnShared (by omega) h _)

/-- The slot that holds a CLAIM is slot 0. -/
theorem slot_of_claim {lc : Link} (h : KindsSound lc) {i : Fin 4} {sl : Slot} (hsl : lc.slots.get i = some sl) :
    i = 0 ↔ sl.frame.kind = 3 := by
  have htakes := h.1 i sl hsl
  constructor
  · rintro rfl
    exact (slotTakes_zero _).mp htakes
  · intro hkind
    rw [hkind] at htakes
    obtain rfl | rfl | hi := slot_cases i
    · rfl
    · exact absurd ((slotTakes_one _).mp htakes) (by decide)
    · exact absurd rfl ((slotTakes_shared hi _).mp htakes).2

/-- A link emptied of the frame that its completion hands on. -/
theorem linkTame_completed {lc : Link} {i : Fin 4} (hi : i ≠ 0) :
    LinkTame lc (lc.emptied i).frameOver.countTransmit :=
  ((linkTame_emptied hi).trans (linkTame_frameOver _)).trans (linkTame_countTransmit _)

theorem bounds_completed (lc : Link) (i : Fin 4) (h : LinkBounded lc) :
    LinkBounded (lc.emptied i).frameOver.countTransmit := by
  by_cases hi : i = 0
  · subst hi
    exact ((linkTame_frameOver _).trans (linkTame_countTransmit (lc.emptied 0).frameOver)).bounds h
  · exact (linkTame_completed hi).bounds h

/-- Slot 0 emptied by the completion of an own CLAIM. -/
theorem completed_zero (lc : Link) : (lc.emptied 0).frameOver.countTransmit.slots.get 0 = none ∧
    (KindsSound lc → KindsSound (lc.emptied 0).frameOver.countTransmit) := by
  have h := (linkTame_frameOver (lc.emptied 0)).trans (linkTame_countTransmit _)
  exact ⟨h.claim.mpr (get_empty lc 0), fun hk => h.kinds (kinds_empty hk 0)⟩

/-- What a CLAIM's completion hands on, and what another frame's does. -/
theorem ownHandedOn_claim {f : Frame} (h : f.kind = 3) (s : State) :
    ownHandedOn s f = select (decideClaim s s.tick) := if_pos h

theorem tame_ownHandedOn (s : State) {f : Frame} (h : f.kind ≠ 3) : Tame s (ownHandedOn s f) := by
  unfold ownHandedOn
  rw [if_neg h]
  split
  · exact tame_playFrameTaken s _ _
  split
  · exact tame_routeEvent s _ _
  · exact .refl s

theorem tame_completed {s : State} {i : Fin 4} {sl : Slot} (h : s.lc.slots.get i = some sl) :
    Tame s (ownHandedOn { s with lc := (s.lc.emptied i).frameOver.countTransmit } sl.frame) := by
  have hbounds := bounds_completed s.lc i
  by_cases hkind : sl.frame.kind = 3
  · rw [ownHandedOn_claim hkind]
    refine Tame.trans ?_ (tame_select _)
    by_cases hi : i = 0
    · subst hi
      exact tame_decideClaim hbounds (completed_zero s.lc).2 (fun _ => (completed_zero s.lc).1) _
    · exact tame_decideClaim hbounds (linkTame_completed hi).kinds
        (fun hs => absurd ((slot_of_claim ((slotsSound_iff s).mp hs).2 h).mpr hkind) hi) _
  · refine Tame.trans ?_ (tame_ownHandedOn _ hkind)
    by_cases hi : i = 0
    · exact ⟨id, id, hbounds, id,
        fun hs => absurd ((slot_of_claim ((slotsSound_iff s).mp hs).2 h).mp hi) hkind, .refl s⟩
    · exact tame_lc (linkTame_completed hi)

/-! ### The entry to SILENT and errors (R67, R152, R158) -/

theorem tame_giveUp (s : State) (plays : List PlayFrame) : Tame s (giveUp s plays) := by
  unfold giveUp
  split
  · exact tame_select s
  · dsimp only
    refine (tame_picks s _).trans (tame_foldl _ (fun t x => ?_) _ _)
    cases x with
    | none => exact tame_select t
    | some k => exact tame_playChange t k

theorem clearClaim_eq (s : State) :
    clearClaim s = { s with cs := (clearClaim s).cs, db := { s.db with claim := none } } := by
  unfold clearClaim
  split
  · dsimp only
    split <;> rfl
  · next h => rw [← h]

theorem clearClaim_chan (s : State) : (clearClaim s).cs = { s.cs with queue := (clearClaim s).cs.queue } := by
  unfold clearClaim
  split
  · dsimp only
    split <;> rfl
  · rfl

/-- DB's claim cleared, its refresh timer stopped, and every slot cleared (R67, R158). -/
theorem tame_silenced (s : State) :
    Tame s { clearClaim s with
      db := { (clearClaim s).db with refresh := none }, lc := (clearClaim s).lc.cleared } := by
  have hqueue : Tame s { s with cs := (clearClaim s).cs } := by
    rw [clearClaim_chan]
    exact tame_queue s _
  rw [clearClaim_eq]
  refine hqueue.trans ⟨id, id, linkBounded_cleared, id, fun _ => ?_, .refl _⟩
  rw [slotsSound_iff]
  refine ⟨⟨fun _ => ?_, fun _ => rfl⟩, kinds_cleared _⟩
  simp [Link.cleared]

theorem tame_enterSilent (s : State) (dropped : Option PlayFrame) : Tame s (enterSilent s dropped) :=
  (tame_silenced s).trans (tame_giveUp _ _)

theorem tame_countError (s : State) (kind : ErrKind) (dropped : Option PlayFrame) {rest : State → State}
    (h : ∀ t, Tame t (rest t)) : Tame s (countError s kind dropped rest) := by
  have hcount : Tame s { s with lc := s.lc.countTransmitError kind } := tame_lc (linkTame_countTransmitError _ kind)
  unfold countError
  dsimp only
  split
  · exact hcount.trans (tame_enterSilent _ dropped)
  · exact hcount.trans (h _)

theorem tame_claimError (s : State) (kind : ErrKind) (found : Tick) : Tame s (claimError s kind found) := by
  have hslot : SlotsSound s → (s.lc.empty 0).slots.get 0 = none := fun _ => get_empty _ 0
  unfold claimError
  dsimp only
  split
  · exact tame_decideClaim (s := s) (lc := s.lc.empty 0) id (fun hk => kinds_empty hk 0) hslot found
  · exact tame_clearClaim (s := s) (lc := s.lc.empty 0) id (fun hk => kinds_empty hk 0) hslot

theorem linkTame_sharedError {lc : Link} {i : Fin 4} {sl : Slot} (hi : 2 ≤ i.val) (h : lc.slots.get i = some sl)
    (kind : ErrKind) : LinkTame lc (sharedError lc i sl kind).1 := by
  unfold sharedError
  split
  · split
    · exact (linkTame_emptied (ne_zero_of_shared hi)).trans
        ⟨fun hb => ⟨hb.1, hb.2.1, hb.2.2.1, bump_le _⟩, id, Iff.rfl⟩
    · exact linkTame_returnShared hi h _
  · exact linkTame_returnShared hi h _

theorem errorOver_slots (lc : Link) : lc.errorOver.slots = lc.slots := by
  unfold Link.errorOver
  split
  · split <;> rfl
  · rfl

/-! ### The STOP pattern (R145, R153) -/

theorem claimCut_iff (lc : Link) :
    lc.claimCut = true ↔ ∃ sl, lc.slots.get 0 = some sl ∧ sl.onWire = true ∧ lc.endedBeforeRun = false := by
  unfold Link.claimCut
  split
  next sl h => simp [h]
  next h => simp [h]

/-- Slot 0 at the STOP pattern: emptied where the CLAIM is cut short. -/
theorem cutShort_zero_of_cut {lc : Link} (h : lc.claimCut = true) :
    lc.allCutShort = ((((lc.empty 0).cutShort 1).cutShort 2).cutShort 3) := by
  obtain ⟨sl, hsl, hwire, hended⟩ := (claimCut_iff lc).mp h
  have hzero : lc.cutShort 0 = lc.empty 0 := by
    unfold Link.cutShort
    rw [hsl]
    simp [hwire]
  unfold Link.allCutShort
  rw [hended, hzero]
  rfl

theorem linkTame_allCutShort {lc : Link} (h : lc.claimCut = false) : LinkTame lc lc.allCutShort := by
  unfold Link.allCutShort
  split
  · exact .refl lc
  next hended =>
    have hzero : lc.cutShort 0 = lc := by
      unfold Link.cutShort
      split
      next sl hsl =>
        split
        next hwire =>
          rw [(claimCut_iff lc).mpr ⟨sl, hsl, hwire, by simpa using hended⟩] at h
          cases h
        next => rfl
      next => rfl
    rw [hzero]
    exact linkTame_cutOthers lc

theorem linkTame_stopRecognised (lc : Link) : LinkTame lc.allCutShort lc.stopRecognised := ⟨id, id, Iff.rfl⟩

theorem tame_stopPattern (s : State) :
    Tame s (if s.lc.claimCut then { s with db := { s.db with claim := none }, lc := s.lc.stopRecognised }
      else { s with lc := s.lc.stopRecognised }) := by
  split
  next h =>
    have hlink := (linkTame_cutOthers (s.lc.empty 0)).trans
      ((cutShort_zero_of_cut h) ▸ linkTame_stopRecognised s.lc)
    exact tame_claimCleared hlink.bounds (fun hk => hlink.kinds (kinds_empty hk 0))
      (fun _ => hlink.claim.mpr (get_empty _ 0))
  next h =>
    exact tame_lc ((linkTame_allCutShort (by simpa using h)).trans (linkTame_stopRecognised _))

/-! ### The start loader (Chapter 12) -/

theorem linkTame_started (lc : Link) (rate500 : Bool) : LinkTame lc { lc with
    started := true, rate500 := rate500, phase := .integrating, state := .active
    TEC := 0, REC := 0, recRun := 0, domRun := 0 } :=
  ⟨fun h => ⟨h.1, Nat.zero_le _, Nat.zero_le _, h.2.2.2⟩, id, Iff.rfl⟩

theorem tame_startLink (s : State) (rate500 : Bool) : Tame s (startLink s rate500) :=
  tame_lc (linkTame_started _ rate500)

theorem tame_statusDue (s : State) (due : Tick) : Tame s { s with sl := { s.sl with statusDue := due } } :=
  ⟨id, id, id, id, id, id, id, id⟩

theorem tame_handStatus (s : State) (due : Tick) : Tame s (handStatus s due) := by
  have hframes : Tame s { s with lc := (statusFrames s 0).foldl Link.hand s.lc } :=
    tame_lc (linkTame_handAll _ (sharedKind_statusFrames s 0) s.lc)
  exact hframes.trans (tame_statusDue _ _)

/-- The start loader moves on from a state that is neither RUN nor UNCONFIGURED. -/
theorem tame_sl {s : State} {sl : Loader} (hrun : s.sl.station ≠ .run) (hun : s.sl.station ≠ .unconfigured) :
    Tame s { s with sl := sl } :=
  ⟨id, id, id, id, id, fun h => absurd h hrun, fun h => absurd h hun, id⟩

theorem tame_enterUnconfigured {s : State} (hrun : s.sl.station ≠ .run) (hun : s.sl.station ≠ .unconfigured)
    (reason : Reason) (rate500 : Bool) : Tame s (enterUnconfigured s reason rate500) :=
  ((tame_sl hrun hun).trans (tame_startLink _ rate500)).trans (tame_handStatus _ _)

theorem tame_markOwn (s : State) : Tame s (markOwn s) := by
  unfold markOwn
  split
  · exact tame_db id Iff.rfl
  · exact .refl s

theorem tame_readStraps {s : State} (h : s.sl.station = .reset) (straps : BitVec 6) :
    Tame s (readStraps s straps) := by
  have hrun : s.sl.station ≠ .run := by simp [h]
  have hun : s.sl.station ≠ .unconfigured := by simp [h]
  have hread : Tame s { s with sl := { s.sl with number := straps, resetLow := false } } := tame_sl hrun hun
  unfold readStraps
  extract_lets sl t
  split
  · exact Tame.trans (t := t) hread (tame_enterUnconfigured (s := t) hrun hun _ _)
  · exact (Tame.trans (t := t) hread (tame_sl (s := t) hrun hun)).trans (tame_markOwn _)

theorem tame_accept {s : State} (h : s.sl.station = .loading) (cfg : Settings) : Tame s (accept s cfg) := by
  have hstart : Tame s (startLink { s with cfg := cfg } cfg.station.rate500) :=
    Tame.trans (t := { s with cfg := cfg }) ⟨id, id, id, id, id, .refl s⟩ (tame_startLink _ _)
  have hconfigured := tame_mapIdx (s := s) (fun n c => c.configured (cfg.profiles.get n).mode) s.cs.queue
    fun _ _ h => h
  refine hstart.trans ⟨hconfigured.coils, id, id, fun hb => ?_, id, ?_⟩
  · obtain ⟨hstuck, hunmatched, hbad, htilt, -⟩ := hb
    exact ⟨hstuck, hunmatched, hbad, htilt, Nat.zero_le _, Nat.zero_le _⟩
  · exact ⟨fun hr => absurd (h.symm.trans hr) (by decide), fun hu => absurd (h.symm.trans hu) (by decide), id⟩

/-! ### The link bit by bit (Chapter 8) -/

/-- The link controller alone is changed, and tamely. -/
def LinkOnly (s t : State) : Prop := ∃ lc, t = { s with lc := lc } ∧ LinkTame s.lc lc

theorem LinkOnly.refl (s : State) : LinkOnly s s := ⟨s.lc, rfl, .refl _⟩

theorem LinkOnly.trans {s t u : State} (h : LinkOnly s t) (k : LinkOnly t u) : LinkOnly s u := by
  obtain ⟨lc, rfl, hlc⟩ := h
  obtain ⟨lc', rfl, hlc'⟩ := k
  exact ⟨lc', rfl, hlc.trans hlc'⟩

theorem LinkOnly.tame {s t : State} (h : LinkOnly s t) : Tame s t := by
  obtain ⟨lc, rfl, hlc⟩ := h
  exact tame_lc hlc

/-- A change of what the link reads and drives, which leaves slots, queue and counts. -/
theorem linkOnly_reading {s : State} {lc : Link} (hslots : lc.slots = s.lc.slots) (hqueue : lc.outq = s.lc.outq)
    (htec : lc.TEC = s.lc.TEC) (hrec : lc.REC = s.lc.REC) (hdrop : lc.txDrop = s.lc.txDrop) :
    LinkOnly s { s with lc := lc } := ⟨lc, rfl, linkTame_of_eq hslots hqueue htec hrec hdrop⟩

theorem linkOnly_offerFrame (s : State) : LinkOnly s (offerFrame s) :=
  ⟨_, offerFrame_eq s, linkTame_offerFrame s⟩

theorem linkOnly_finds (s : State) (kind : ErrKind) (transmit b : Bool) : LinkOnly s (s.finds kind transmit b) :=
  ⟨_, rfl, (linkTame_signal s.lc).trans ⟨id, id, Iff.rfl⟩⟩

theorem linkOnly_startReceive (s : State) : LinkOnly s (startReceive s) := linkOnly_reading rfl rfl rfl rfl rfl

theorem linkOnly_cutFrameBit (s : State) (b : Bool) : LinkOnly s (cutFrameBit s b) := by
  unfold cutFrameBit
  split
  · split
    · exact linkOnly_finds s _ _ _
    · exact linkOnly_reading rfl rfl rfl rfl rfl
  · exact linkOnly_reading rfl rfl rfl rfl rfl

theorem linkOnly_frameBitTaken (s : State) (sent b : Bool) : LinkOnly s (frameBitTaken s sent b).1 := by
  unfold frameBitTaken
  split
  · exact linkOnly_cutFrameBit s b
  split
  · exact linkOnly_cutFrameBit s b
  split
  · exact linkOnly_reading rfl rfl rfl rfl rfl
  · exact linkOnly_reading rfl rfl rfl rfl rfl
  · exact linkOnly_reading rfl rfl rfl rfl rfl
  · exact ⟨_, rfl, linkTame_signal s.lc⟩
  · exact linkOnly_finds s _ _ _
  · exact .refl s

theorem linkOnly_phaseBit (s : State) (sent b : Bool) : LinkOnly s (phaseBit s sent b).1 := by
  unfold phaseBit
  split
  case h_1 => exact linkOnly_reading rfl rfl rfl rfl rfl
  case h_2 =>
    split
    · split
      · exact (linkOnly_offerFrame s).trans (linkOnly_finds _ _ _ _)
      · exact .refl s
    · split
      · exact .refl s
      · exact linkOnly_startReceive s
  case h_3 =>
    split
    · split <;> exact linkOnly_reading rfl rfl rfl rfl rfl
    · exact linkOnly_startReceive s
  case h_4 => exact ⟨_, rfl, linkTame_signalBit s.lc⟩
  case h_5 =>
    split
    · split <;> exact linkOnly_reading rfl rfl rfl rfl rfl
    · exact linkOnly_reading rfl rfl rfl rfl rfl
  case h_6 =>
    split
    · exact linkOnly_reading rfl rfl rfl rfl rfl
    · exact .refl s
  case h_7 => exact linkOnly_frameBitTaken s sent b

theorem linkOnly_readBit (s : State) (sent b : Bool) : LinkOnly s (readBit s sent b).1 := by
  have hread (run : Nat) : LinkOnly s { s with lc := { ((s.lc.recover b).settle b).1 with domRun := run } } :=
    ⟨_, rfl, ((linkTame_recover s.lc b).trans (linkTame_settle _ b)).trans ⟨id, id, Iff.rfl⟩⟩
  unfold readBit
  dsimp only
  split
  · exact hread _
  · exact (hread _).trans (linkOnly_phaseBit _ sent b)

theorem tame_queueArisen (s : State) (cs : List Instr) : Tame s (queueArisen s cs) := by
  unfold queueArisen
  split <;> exact tame_of_eq rfl rfl rfl rfl rfl rfl rfl rfl

theorem tame_linkBit (s : State) : Tame s (linkBit s) := by
  have hbit : Tame s { s with bitDue := false, lines := { s.lines with linkIn := s.lines.linkIn.tail } } :=
    tame_of_eq rfl rfl rfl rfl rfl rfl rfl rfl
  have hdrove (t : State) : Tame t { t with lc := t.lc.drove } := tame_lc ⟨id, id, Iff.rfl⟩
  unfold linkBit
  dsimp only
  split
  · exact ((hbit.trans (linkOnly_readBit _ _ _).tame).trans (hdrove _)).trans (tame_queueArisen _ _)
  · exact (hbit.trans (hdrove _)).trans (tame_queueArisen _ _)

/-! ### The passing of time (R1, R116, R124) -/

theorem tame_nextTick (s : State) : Tame s (nextTick s) := by
  have hlamps : Tame s { s with lp := { s.lp.beatTick with pos := s.nextPos } } := by
    refine tame_lp (fun h => ?_) (fun h => ?_)
    · show s.lp.beatTick.phase ≤ 319
      unfold Lamps.beatTick
      split
      · split
        · exact Nat.zero_le _
        · show s.lp.phase + 1 ≤ 319
          omega
      · exact h
    · show s.nextPos ≤ 14
      unfold State.nextPos
      split
      · omega
      · exact h
  exact hlamps.trans (tame_of_eq rfl rfl rfl rfl rfl rfl rfl rfl)

theorem tame_passTime (s : State) : Tame s (passTime s) := by
  unfold passTime
  extract_lets t
  have ht : Tame s t := by
    show Tame s (if _ then _ else _)
    split
    · exact tame_nextTick s
    · exact tame_of_eq rfl rfl rfl rfl rfl rfl rfl rfl
  exact ht.trans (tame_of_eq rfl rfl rfl rfl rfl rfl rfl rfl)

theorem tame_takeDue (s : State) (d : Option Instr) : Tame s (takeDue s d) := by
  cases d with
  | none => exact tame_linkBit s
  | some c => exact tame_of_eq rfl rfl rfl rfl rfl rfl rfl rfl

theorem tame_idle (s : State) : Tame s (idle s) := by
  unfold idle
  split
  · exact tame_passTime s
  · exact tame_takeDue s _
  · exact (tame_picks s _).trans (tame_takeDue _ _)

end Sys2Proof.Proofs
end

section
/-! Every step keeps the bounds (O3) and the slots (O5), and only a reset leaves RUN, UNCONFIGURED and SLAM (O6); the
invariants at reset (O2). -/

namespace Sys2Proof.Proofs
open Sys2Proof.Machine

/-- Whatever state an outcome answers follows tamely from `s`. -/
def TameTo (s : State) (o : Host.Outcome State Fault Refusal) : Prop := ∀ t, o = .next t → Tame s t

theorem tameTo_next {s t : State} (h : Tame s t) : TameTo s (.next t) := by
  rintro _ ⟨rfl⟩
  exact h

theorem tameTo_refl (s : State) : TameTo s (.next s) := tameTo_next (.refl s)

/-- A command that acts where a condition holds, and else does nothing. -/
theorem tameTo_ite {s t : State} {p : Prop} [Decidable p] (h : p → Tame s t) :
    TameTo s (if p then .next t else .next s) := by
  split
  next hp => exact tameTo_next (h hp)
  next => exact tameTo_refl s

/-! ### Station and link -/

theorem tame_imageCheck (image : List Byte) (s : State) : TameTo s (execImageCheck image s) := by
  unfold execImageCheck
  split
  case isFalse => exact tameTo_refl s
  case isTrue h =>
    dsimp only
    split
    · exact tameTo_next (tame_accept h _)
    · exact tameTo_next (tame_enterUnconfigured (by simp [h]) (by simp [h]) _ _)

theorem tame_joiningEnd (s : State) : TameTo s (execJoiningEnd s) := by
  refine tameTo_ite fun ⟨hjoining, _⟩ => ?_
  have hpos : Tame s { s with lp := { s.lp with pos := 0 }, falling := s.falling ++ [.window 0, .window 15] } :=
    (tame_lp (s := s) (lp := { s.lp with pos := 0 }) id (fun _ => Nat.zero_le _)).trans
      (tame_of_eq rfl rfl rfl rfl rfl rfl rfl rfl)
  refine Tame.trans (hpos.trans ?_) (tame_announce _)
  exact tame_sl (by simp [hjoining]) (by simp [hjoining])

theorem tame_frameOffer (s : State) : TameTo s (execFrameOffer s) := tameTo_ite fun _ => tame_offerFrame s

theorem tame_arbitrationLost (s : State) : TameTo s (execArbitrationLost s) := by
  unfold execArbitrationLost
  split
  case h_2 => exact tameTo_refl s
  split
  case h_2 => exact tameTo_refl s
  case h_1 sl h =>
    dsimp only
    refine tameTo_next (Tame.trans ?_ (tame_arbitrationEnd h))
    exact tame_lc (linkTame_of_eq rfl rfl rfl rfl rfl)

theorem tame_ownFrameComplete (s : State) : TameTo s (execOwnFrameComplete s) := by
  unfold execOwnFrameComplete
  split
  case h_2 => exact tameTo_refl s
  split
  case h_2 => exact tameTo_refl s
  case h_1 sl h => exact tameTo_next (tame_completed h)

theorem tame_transmitError (kind : ErrKind) (found : Tick) (s : State) :
    TameTo s (execTransmitError kind found s) := by
  have hend : Tame s { s with lc := s.lc.errorOver } := tame_lc (linkTame_errorOver _)
  unfold execTransmitError
  split
  case h_2 => exact tameTo_refl s
  split
  case h_2 => exact tameTo_refl s
  case h_1 i _ sl h =>
    dsimp only
    rw [← errorOver_slots] at h
    split
    · exact tameTo_next ((hend.trans (tame_claimError _ kind found)).trans (tame_countError _ kind none tame_select))
    split
    next hi =>
      have hempty := tame_lc (s := { s with lc := s.lc.errorOver }) (linkTame_empty (i := 1) (by decide))
      exact tameTo_next ((hend.trans hempty).trans (tame_countError _ kind none .refl))
    next hi0 hi1 =>
      have hshared := tame_lc (s := { s with lc := s.lc.errorOver }) (linkTame_sharedError (by omega) h kind)
      refine tameTo_next ((hend.trans hshared).trans (tame_countError _ kind _ fun t => ?_))
      split
      · exact tame_playChange t _
      · exact .refl t

theorem tame_recoveryComplete (s : State) : TameTo s (execRecoveryComplete s) := by
  refine tameTo_ite fun _ => ?_
  have hlink : LinkTame s.lc
      { s.lc with state := .active, TEC := 0, REC := 0, recovery := 0, partialRun := 0 } :=
    ⟨fun h => ⟨h.1, Nat.zero_le _, Nat.zero_le _, h.2.2.2⟩, id, Iff.rfl⟩
  exact ((tame_lc hlink).trans (tame_announce _)).trans (tame_select _)

theorem tame_execStopPattern (s : State) : TameTo s (execStopPattern s) := by
  refine tameTo_ite fun _ => Tame.trans ?_ (tame_tableStop _)
  exact tame_stopPattern s

/-! ### Frames of other stations -/

theorem tame_claimHeard (f : Heard) (s : State) : TameTo s (execClaimHeard f s) := by
  refine tameTo_ite fun _ => (tame_received s f.source).trans ?_
  unfold judgeClaim
  split
  · split
    · exact tame_addDraw _ _
    · exact .refl _
  · exact .refl _

theorem tame_standingHeard (f : Heard) (s : State) : TameTo s (execStandingHeard f s) := by
  have hreceived := tame_received s f.source
  unfold execStandingHeard
  split
  case isFalse => exact tameTo_refl s
  dsimp only
  split
  case isFalse => exact tameTo_next hreceived
  split
  case h_2 => exact tameTo_next hreceived
  case h_1 i _ =>
    refine tameTo_next (hreceived.trans ?_)
    have hset : Tame (received s f.source) { received s f.source with db := { (received s f.source).db with
        standing := (received s f.source).db.standing.set i
          ⟨min 4095 (pWord f.payload 1), (received s f.source).tick, true⟩ } } := tame_db id Iff.rfl
    unfold standingSet
    dsimp only
    split
    · exact hset.trans (tame_viewDecrease _)
    · exact hset

theorem tame_handBeat (s : State) (beat : BitVec 8) : Tame s (handBeat s beat) := by
  unfold handBeat
  split
  · exact tame_lc (linkTame_place (by decide) ((slotTakes_one _).mpr rfl))
  · exact .refl s

/-- The phase of a corrected beat timer stays below 320 (R127). -/
theorem resync_phase (lp : Lamps) (p : Nat) (sofBeat sender : BitVec 8) (j : Nat) (h : lp.phase ≤ 319) :
    (lp.resync p sofBeat sender j).phase ≤ 319 := by
  unfold Lamps.resync
  dsimp only
  split
  · show lp.phase - min p j ≤ 319
    omega
  next hp =>
    split
    · show lp.phase + min (320 - p) j - 320 ≤ 319
      omega
    next hwraps =>
      show lp.phase + min (320 - p) j ≤ 319
      simp only [advanceWraps, Bool.and_eq_true, decide_eq_true_eq] at hwraps
      omega

theorem resync_pos (lp : Lamps) (p : Nat) (sofBeat sender : BitVec 8) (j : Nat) :
    (lp.resync p sofBeat sender j).pos = lp.pos := by
  unfold Lamps.resync
  dsimp only
  split
  · rfl
  · split <;> rfl

theorem tame_takeBeat (s : State) (p : Nat) (sofBeat sender : BitVec 8) : Tame s (takeBeat s p sofBeat sender) := by
  have hsync (j : Nat) : Tame s { s with lp := s.lp.resync p sofBeat sender j } :=
    tame_lp (resync_phase _ _ _ _ _) (fun h => by rw [resync_pos]; exact h)
  unfold takeBeat
  dsimp only
  split
  · exact (hsync _).trans (tame_handBeat _ _)
  · exact hsync _

theorem tame_beatReceived (f : Heard) (sofPhase : Fin 320) (sofBeat : BitVec 8) (s : State) :
    TameTo s (execBeatReceived f sofPhase sofBeat s) := by
  have hreceived := tame_received s f.source
  unfold execBeatReceived
  split
  case isFalse => exact tameTo_refl s
  dsimp only
  split
  · exact tameTo_next hreceived
  split
  · exact tameTo_next (hreceived.trans (tame_takeBeat _ _ _ _))
  · exact tameTo_next hreceived

/-! ### Outputs, sensing, draw budget and flippers -/

theorem tame_guardPassed (n : Out) (s : State) : TameTo s (execGuardPassed n s) := by
  unfold execGuardPassed
  split
  · exact tameTo_ite fun _ => tame_queue s _
  · exact tameTo_refl s

theorem tame_waitLimit (n : Out) (s : State) : TameTo s (execWaitLimitExpiry n s) := by
  unfold execWaitLimitExpiry
  split
  · refine tameTo_ite fun _ => ?_
    exact ((((tame_dequeue s n).trans (tame_updCh _ n _ id)).trans (tame_toOff _ n)).trans
      (tame_waitDropped _)).trans (tame_select _)
  · exact tameTo_refl s

theorem tame_notePowerEnd (s : State) (n : Out) : Tame s (s.notePowerEnd n) := by
  unfold State.notePowerEnd
  split
  · exact tame_of_eq rfl rfl rfl rfl rfl rfl rfl rfl
  · exact .refl s

theorem tame_powerEnd (n : Out) (s : State) : TameTo s (execPowerEnd n s) := by
  have hnote := tame_notePowerEnd s n
  unfold execPowerEnd
  dsimp only
  split
  case isFalse => exact tameTo_refl s
  split
  · exact tameTo_next (tame_toFault s n _)
  split
  · exact tameTo_next (hnote.trans (tame_enterHold _ n))
  · exact tameTo_next (hnote.trans (tame_coolFrom _ n))

theorem tame_maxHoldExpiry (n : Out) (s : State) : TameTo s (execMaxHoldExpiry n s) :=
  tameTo_ite fun _ => (tame_updCh s n _ fun h => ⟨h.1, h.2.1, satAdd_le _ _ _⟩).trans (tame_leaveHold _ n)

theorem tame_trainPulseEnd (n : Out) (s : State) : TameTo s (execTrainPulseEnd n s) := by
  unfold execTrainPulseEnd
  dsimp only
  split
  · exact tameTo_refl s
  split
  case isFalse => exact tameTo_refl s
  split
  · exact tameTo_next (tame_toFault s n _)
  split
  · split
    · exact tameTo_next (tame_updCh s n _ id)
    · exact tameTo_next (tame_coolFrom s n)
  · exact tameTo_next (tame_coolFrom s n)

theorem tame_burstPulseStart (n : Out) (s : State) : TameTo s (execBurstPulseStart n s) := by
  unfold execBurstPulseStart
  dsimp only
  split
  · exact tameTo_refl s
  split
  · exact tameTo_refl s
  · exact tameTo_ite fun _ => tame_updCh s n _ fun h => ⟨satAdd_le _ _ _, h.2⟩

theorem tame_burstCoolEnd (n : Out) (s : State) : TameTo s (execBurstCoolEnd n s) := by
  unfold execBurstCoolEnd
  split
  · exact tameTo_refl s
  · exact tameTo_ite fun _ => tame_burstCoolOver s n _

theorem tame_sc (s : State) (sc : Sense) : Tame s { s with sc := sc } := tame_of_eq rfl rfl rfl rfl rfl rfl rfl rfl

theorem tame_openCheckRequest (n : Out) (s : State) : TameTo s (execOpenCheckRequest n s) := by
  have hcheck : Tame s (s.updCh n Channel.checking) := tame_updCh s n _ id
  unfold execOpenCheckRequest
  dsimp only
  split
  case h_2 => exact tameTo_refl s
  refine tameTo_ite fun _ => Tame.trans ?_ (tame_sc _ _)
  split
  · exact hcheck.trans (tame_uncheckedPhase _)
  · exact hcheck

theorem tame_openCheckResult (s : State) (n : Out) (phase : Tick) (i : Nat) :
    Tame s (openCheckResult s n phase i) := by
  unfold openCheckResult
  split
  · refine tame_updCh s _ _ fun h => ⟨h.1, ?_, h.2.2⟩
    show (if _ then satAdd 3 _ 1 else 0) ≤ 3
    split
    · exact satAdd_le _ _ _
    · exact Nat.zero_le _
  · exact Tame.trans (tame_updCh s _ _ id) (tame_uncheckedPhase _)

theorem tame_conversionEnd (raw : BitVec 10) (s : State) : TameTo s (execCurrentConversionEnd raw s) := by
  unfold execCurrentConversionEnd
  split
  case h_2 => exact tameTo_refl s
  dsimp only
  refine tameTo_next (Tame.trans ?_ (tame_openCheckResult _ _ _ _))
  exact tame_sc s _

theorem tame_take (s : State) (f : Falling) : Tame s (s.take f) := tame_of_eq rfl rfl rfl rfl rfl rfl rfl rfl

theorem tame_supplyReadingEnd (raw : BitVec 10) (s : State) : TameTo s (execSupplyReadingEnd raw s) := by
  unfold execSupplyReadingEnd
  split
  case h_2 => exact tameTo_refl s
  dsimp only
  split
  · exact tameTo_next (tame_sc s _)
  split
  · exact tameTo_next ((tame_sc s _).trans (tame_select _))
  · exact tameTo_next (tame_sc s _)

theorem tame_decayHeat (s : State) : Tame s (decayHeat s) :=
  tame_mapIdx _ s.cs.queue fun _ _ h => ⟨Nat.le_trans (Nat.sub_le _ _) h.1, h.2⟩

theorem tame_heatDecayPass (s : State) : TameTo s (execHeatDecayPass s) := by
  have htake := tame_take s .heatDecay
  unfold execHeatDecayPass
  split
  case isFalse => exact tameTo_refl s
  dsimp only
  split
  · exact tameTo_next ((htake.trans (tame_decayHeat _)).trans (tame_select _))
  · exact tameTo_next htake

theorem tame_flipperTrip (n : Out) (current : Nat) (partner : Option Nat) (s : State) :
    TameTo s (execFlipperTrip n current partner s) := by
  unfold execFlipperTrip
  split
  · exact tameTo_refl s
  next f _ =>
    extract_lets first t
    have ht : Tame s t := by
      show Tame s (if _ then _ else _)
      split
      · exact tame_flipperFault s f n
      · exact .refl s
    split
    · split
      · exact tameTo_next (ht.trans (tame_flipperFault t f _))
      · exact tameTo_next ht
    · exact tameTo_next ht

theorem tame_entryExpiry (s : State) : TameTo s (execEntryExpiry s) := by
  refine tameTo_ite fun _ => Tame.trans ?_ (tame_viewDecrease _)
  exact tame_db (fun h => ⟨Nat.le_trans (List.length_filter_le _ _) h.1, h.2⟩) Iff.rfl

theorem tame_ageingOut (i : Fin 63) (s : State) : TameTo s (execAgeingOut i s) := by
  refine tameTo_ite fun _ => Tame.trans ?_ (tame_viewDecrease _)
  exact tame_db id Iff.rfl

/-! ### Switches -/

theorem tame_setSw (s : State) (sw : Sw) (r : Switch) : Tame s (s.setSw sw r) :=
  ⟨id, id, id, id, id, .refl s⟩

theorem tame_rawChange (sw : Sw) (high : Bool) (s : State) : TameTo s (execRawChange sw high s) := by
  have hline : Tame s { s with lines := { s.lines with sw := s.lines.sw.set sw high } } :=
    tame_of_eq rfl rfl rfl rfl rfl rfl rfl rfl
  unfold execRawChange
  dsimp only
  split
  · exact tameTo_next (hline.trans (tame_setSw _ sw _))
  · exact tameTo_next hline

theorem tame_debounceEnd (sw : Sw) (s : State) : TameTo s (execDebounceEnd sw s) := by
  unfold execDebounceEnd
  dsimp only
  split
  case isFalse => exact tameTo_refl s
  split
  · exact tameTo_next ((tame_setSw s sw _).trans (tame_edge _ sw _))
  · exact tameTo_next ((tame_setSw s sw _).trans (tame_edge _ sw _))
  · exact tameTo_next ((tame_setSw s sw _).trans (tame_flippersLevel _ sw _))
  · exact tameTo_next (tame_setSw s sw _)

theorem tame_stuckCount (s : State) : Tame s { s with sw := { s.sw with stuckCount := bump s.sw.stuckCount } } :=
  ⟨id, id, id, fun h => ⟨bump_le _, h.2⟩, id, .refl s⟩

theorem tame_stuckEnd (sw : Sw) (s : State) : TameTo s (execStuckEnd sw s) := by
  refine tameTo_ite fun _ => Tame.trans ?_ (tame_stuckCount _)
  exact tame_setSw s sw _

theorem tame_windowStart (l : Lamp) (s : State) : TameTo s (execWindowStart l s) :=
  tameTo_ite fun _ => (tame_take s (.window l)).trans (tame_lp id id)

theorem tame_beatPhaseZero (s : State) : TameTo s (execBeatPhaseZero s) := by
  unfold execBeatPhaseZero
  split
  · exact tameTo_next ((tame_take s _).trans (tame_handBeat _ _))
  · exact tameTo_refl s

/-! ### Every command but a reset -/

theorem tame_exec (c : Instr) (s : State) (h : ¬ Resets c) : TameTo s (exec c s) := by
  cases c with
  | powerOnReset => exact absurd trivial h
  | resetLineAssert => exact absurd trivial h
  | resetLineRelease straps => exact tameTo_ite fun ⟨hreset, _⟩ => tame_readStraps hreset straps
  | imageCheck image => exact tame_imageCheck image s
  | joiningEnd => exact tame_joiningEnd s
  | unconfiguredStatus => exact tameTo_ite fun _ => tame_handStatus s _
  | fire f => exact tameTo_next (tame_commandReceived s _ f)
  | hold f => exact tameTo_next (tame_commandReceived s _ f)
  | release f => exact tameTo_next (tame_commandReceived s _ f)
  | train f => exact tameTo_next (tame_commandReceived s _ f)
  | trainStop f => exact tameTo_next (tame_commandReceived s _ f)
  | lamp f => exact tameTo_next (tame_commandReceived s _ f)
  | clear f => exact tameTo_next (tame_commandReceived s _ f)
  | query f => exact tameTo_next (tame_commandReceived s _ f)
  | guardPassed n => exact tame_guardPassed n s
  | waitLimitExpiry n => exact tame_waitLimit n s
  | frameOffer => exact tame_frameOffer s
  | arbitrationLost => exact tame_arbitrationLost s
  | ownFrameComplete => exact tame_ownFrameComplete s
  | transmitError kind found => exact tame_transmitError kind found s
  | receiveError kind =>
    exact tameTo_ite fun _ => tame_lc ((linkTame_errorOver _).trans (linkTame_countReceiveError _))
  | recoveryComplete => exact tame_recoveryComplete s
  | stopPattern => exact tame_execStopPattern s
  | stopPatternEnd => exact tameTo_next (tame_lc (linkTame_of_eq rfl rfl rfl rfl rfl))
  | claimHeard f => exact tame_claimHeard f s
  | standingHeard f => exact tame_standingHeard f s
  | heardFrame kind f => exact tameTo_ite fun _ => tame_received s f.source
  | beatReceived f sofPhase sofBeat => exact tame_beatReceived f sofPhase sofBeat s
  | tiltReceived f => exact tameTo_ite fun _ => (tame_received s f.source).trans (tame_playFrameTaken _ _ _)
  | gameReceived f => exact tameTo_ite fun _ => (tame_received s f.source).trans (tame_playFrameTaken _ _ _)
  | eventReceived f => exact tameTo_ite fun _ => (tame_received s f.source).trans (tame_routeEvent _ _ _)
  | powerEnd n => exact tame_powerEnd n s
  | maxHoldExpiry n => exact tame_maxHoldExpiry n s
  | coolEnd n => exact tameTo_ite fun _ => tame_coolOver s n
  | trainPulseEnd n => exact tame_trainPulseEnd n s
  | burstPulseStart n => exact tame_burstPulseStart n s
  | burstCoolEnd n => exact tame_burstCoolEnd n s
  | openCheckRequest n => exact tame_openCheckRequest n s
  | currentConversionEnd raw => exact tame_conversionEnd raw s
  | supplySlot => exact tameTo_ite fun _ => (tame_take s _).trans (tame_sc _ _)
  | supplyReadingEnd raw => exact tame_supplyReadingEnd raw s
  | fastTrip n current => exact tameTo_ite fun _ => tame_toFault s n _
  | flipperTrip n current partner => exact tame_flipperTrip n current partner s
  | heatDecayPass => exact tame_heatDecayPass s
  | entryExpiry => exact tame_entryExpiry s
  | ageingOut station => exact tame_ageingOut station s
  | refreshExpiry => exact tameTo_ite fun _ => tame_announce s
  | rawChange sw high => exact tame_rawChange sw high s
  | debounceEnd sw => exact tame_debounceEnd sw s
  | stuckEnd sw => exact tame_stuckEnd sw s
  | flipperWindowEnd f => exact tameTo_ite fun _ => tame_fl s _
  | flipperPowerEnd f => exact tameTo_ite fun _ => tame_fl s _
  | repowerEnd f => exact tameTo_ite fun _ => tame_fl s _
  | holdLimitEnd f =>
    exact tameTo_ite fun _ => Tame.trans (tame_fl s _) (tame_updCh _ _ _ fun h => ⟨h.1, h.2.1, satAdd_le _ _ _⟩)
  | windowStart l => exact tame_windowStart l s
  | beatPhaseZero => exact tame_beatPhaseZero s
  | beatWithdraw => exact tameTo_ite fun _ => tame_lc (linkTame_empty (by decide))
  | integratingEnd => exact tameTo_ite fun _ => tame_lc (linkTame_of_eq rfl rfl rfl rfl rfl)

/-- A step whose front command, if there is one, is no reset is tame. -/
theorem tame_step {s t : State} (h : step s = .next t) (hreset : ∀ c ∈ s.pending.head?, ¬ Resets c) :
    Tame s t := by
  unfold step at h
  split at h
  next c rest hpending =>
    have hpop : Tame s { s with pending := rest } := tame_of_eq rfl rfl rfl rfl rfl rfl rfl rfl
    exact hpop.trans (tame_exec c _ (hreset c (by rw [hpending]; rfl)) t h)
  next =>
    obtain rfl : idle s = t := Host.Outcome.next.inj h
    exact tame_idle s

/-! ### Resets -/

theorem kindsSound_reset : KindsSound Link.reset :=
  ⟨fun i sl hsl => by simp [Link.reset] at hsl, fun f hf => by cases hf⟩

theorem linkBounded_reset : LinkBounded Link.reset := by
  refine ⟨?_, ?_, ?_, ?_⟩ <;> exact Nat.zero_le _

theorem paired_of_none {s : State} (hclaim : s.db.claim = none) (hslots : s.lc.slots = .fill 4 none) : Paired s := by
  simp [Paired, hclaim, hslots]

theorem channelBounded_reset {heat : Nat} (h : heat ≤ 65535) : ChannelBounded { Channel.reset with heat := heat } :=
  ⟨h, Nat.zero_le _, Nat.zero_le _⟩

/-- The bounds of a state whose blocks but the coils are as a reset leaves them. -/
theorem bounded_of_reset {s : State} (hcoils : CoilsBounded s.cs) (hdb : s.db = .reset) (hlink : LinkBounded s.lc)
    (hsw : s.sw = .reset) (her : s.er = ⟨0, 0⟩) (hpc : s.pc = ⟨.idle, false, 0⟩) (hlp : s.lp = .reset) :
    Bounded s := by
  refine (bounded_iff s).mpr ⟨hcoils, ?_, hlink, ?_⟩
  · rw [hdb]
    exact ⟨Nat.zero_le _, Nat.zero_le _⟩
  · unfold OthersBounded
    rw [hsw, her, hpc, hlp]
    refine ⟨?_, ?_, ?_, ?_, ?_, ?_⟩ <;> exact Nat.zero_le _

theorem coilsBounded_reset : CoilsBounded Coils.reset := by
  refine ⟨Nat.zero_le _, Nat.zero_le _, Nat.zero_le _, fun n => ?_⟩
  show ChannelBounded ((Bank.fill 16 Channel.reset).get n)
  rw [Bank.get_fill]
  exact channelBounded_reset (Nat.zero_le _)

theorem bounded_powerOn (s : State) (low : Bool) : Bounded (powerOn s low) :=
  bounded_of_reset coilsBounded_reset rfl linkBounded_reset rfl rfl rfl rfl

theorem slotsSound_powerOn (s : State) (low : Bool) : SlotsSound (powerOn s low) :=
  (slotsSound_iff _).mpr ⟨paired_of_none rfl rfl, kindsSound_reset⟩

theorem bounded_lineReset {s : State} (h : Bounded s) : Bounded (lineReset s) := by
  refine bounded_of_reset ⟨Nat.zero_le _, Nat.zero_le _, Nat.zero_le _, fun n => ?_⟩ rfl linkBounded_reset rfl rfl rfl
    rfl
  obtain ⟨⟨-, -, -, hchan⟩, -⟩ := (bounded_iff s).mp h
  show ChannelBounded ((s.cs.chan.mapIdx fun _ c => { Channel.reset with heat := c.heat }).get n)
  rw [Bank.get_mapIdx]
  exact channelBounded_reset (hchan n).1

theorem slotsSound_lineReset (s : State) : SlotsSound (lineReset s) :=
  (slotsSound_iff _).mpr ⟨paired_of_none rfl rfl, kindsSound_reset⟩

/-- What holds after a power-on reset, and is kept by the tame reading of the straps, holds of POWER_ON_RESET. -/
theorem execPowerOnReset_keeps {inv : State → Prop} (hon : ∀ s low, inv (powerOn s low))
    (htame : ∀ {s t}, Tame s t → inv s → inv t) {high : Bool} {straps : BitVec 6} {s t : State}
    (h : execPowerOnReset high straps s = .next t) : inv t := by
  unfold execPowerOnReset at h
  split at h
  · cases h
    exact htame (tame_readStraps rfl straps) (hon s false)
  · cases h
    exact hon s true

/-- What the resets leave, and every tame change keeps, every step keeps. -/
theorem kept_of_tame {inv : State → Prop} (hon : ∀ s low, inv (powerOn s low))
    (hline : ∀ s, inv s → inv (lineReset s)) (htame : ∀ {s t}, Tame s t → inv s → inv t) : Kept inv := by
  intro s t hs hstep
  by_cases hreset : ∀ c ∈ s.pending.head?, ¬ Resets c
  · exact htame (tame_step hstep hreset) hs
  · obtain ⟨c, hreset⟩ := Classical.not_forall.mp hreset
    obtain ⟨hc, hreset⟩ := Classical.not_imp.mp hreset
    have hresets : Resets c := Classical.not_not.mp hreset
    unfold step at hstep
    split at hstep
    next c' rest hpending =>
      rw [hpending] at hc
      obtain rfl : c' = c := by simpa using hc
      have hpop : Tame s { s with pending := rest } := tame_of_eq rfl rfl rfl rfl rfl rfl rfl rfl
      cases c' with
      | powerOnReset high straps => exact execPowerOnReset_keeps hon htame hstep
      | resetLineAssert =>
        obtain rfl := Host.Outcome.next.inj hstep
        exact hline _ (htame hpop hs)
      | _ => exact absurd hresets id
    next hpending =>
      rw [hpending] at hc
      cases hc

/-! ### The statements -/

/-- Settles O3: every bound holds block by block after each operation. -/
theorem everyStepKeepsTheBounds : Obligations.EveryStepKeepsTheBounds :=
  kept_of_tame bounded_powerOn (fun _ => bounded_lineReset) Tame.bounded

/-- Settles O5: the slots and the claim in flight are sound after each operation. -/
theorem everyStepKeepsTheSlotsSound : Obligations.EveryStepKeepsTheSlotsSound :=
  kept_of_tame slotsSound_powerOn (fun s _ => slotsSound_lineReset s) Tame.slots

/-- Settles O6: no operation but a reset leaves RUN, UNCONFIGURED or SLAM. -/
theorem resetAloneLeavesRunAndSlam : Obligations.ResetAloneLeavesRunAndSlam :=
  fun _ _ hstep hreset => (tame_step hstep hreset).stays

end Sys2Proof.Proofs
end

section
/-! What is said of outputs, queue, claim and own record (O4): the parts that the coil sequencer's work keeps, and
what each of its operations does to them. -/

namespace Sys2Proof.Proofs
open Sys2Proof.Machine

/-! ### One output (R3, R7, R23, R173, R175) -/

/-- What is said of an output's channel `c` under profile `p`, where `shut` says that its class is closed. -/
structure ChannelOk (p : Profile) (shut : Prop) (c : Channel) : Prop where
  owed : c.repeats ≤ p.depth
  undriven : p.mode.isCS = false → c.state = .off ∨ c.state = .flipper ∨ c.state = .fault
  driven : p.mode.isCS = true → c.state ≠ .flipper
  faulty : c.state = .fault → c.repeats = 0 ∧ c.train = none
  closed : p.mode.isCS = true → shut →
    (c.state = .off ∨ c.state = .cool ∨ c.state = .fault) ∧ c.repeats = 0 ∧ c.train = none

theorem outputSound_iff (s : State) (n : Out) :
    OutputSound s n ↔ ChannelOk (s.prof n) (Closed s (s.prof n).cls) (s.ch n) :=
  ⟨fun ⟨howed, hundriven, hdriven, hfaulty, hclosed⟩ => ⟨howed, hundriven, hdriven, hfaulty, hclosed⟩,
    fun ⟨howed, hundriven, hdriven, hfaulty, hclosed⟩ => ⟨howed, hundriven, hdriven, hfaulty, hclosed⟩⟩

/-- The states that an output of a closed class is not in. -/
def Works (st : ChanState) : Prop := st = .queued ∨ st = .power ∨ st = .hold ∨ st = .gap

section Channel

variable {p : Profile} {shut : Prop} {c c' : Channel}

/-- An output that works is CS's, and its class is open. -/
theorem ChannelOk.of_works (h : ChannelOk p shut c) (hw : Works c.state) : p.mode.isCS = true ∧ ¬ shut := by
  have hcs : p.mode.isCS = true := by
    refine Classical.byContradiction fun hnot => ?_
    have hstate := h.undriven (by simpa using hnot)
    obtain hw | hw | hw | hw := hw <;> simp [hw] at hstate
  refine ⟨hcs, fun hshut => ?_⟩
  obtain ⟨hstate, -⟩ := h.closed hcs hshut
  obtain hw | hw | hw | hw := hw <;> simp [hw] at hstate

/-- An output in COOL is CS's. -/
theorem ChannelOk.of_cool (h : ChannelOk p shut c) (hstate : c.state = .cool) : p.mode.isCS = true := by
  refine Classical.byContradiction fun hnot => ?_
  have := h.undriven (by simpa using hnot)
  simp [hstate] at this

/-- Nothing is asked of a CS output of an open class but its repeat depth. -/
theorem channelOk_of_open (hcs : p.mode.isCS = true) (hopen : ¬ shut) (howed : c.repeats ≤ p.depth)
    (hflipper : c.state ≠ .flipper) (hfault : c.state ≠ .fault) : ChannelOk p shut c :=
  ⟨howed, fun h => by simp [hcs] at h, fun _ => hflipper, fun h => absurd h hfault, fun _ h => absurd h hopen⟩

/-- State, owed pulses and train alone are spoken of. -/
theorem ChannelOk.congr (h : ChannelOk p shut c) (hstate : c'.state = c.state) (howed : c'.repeats = c.repeats)
    (htrain : c'.train = c.train) : ChannelOk p shut c' := by
  obtain ⟨h1, h2, h3, h4, h5⟩ := h
  constructor
  · rwa [howed]
  · rwa [hstate]
  · rwa [hstate]
  · rwa [hstate, howed, htrain]
  · rwa [hstate, howed, htrain]

theorem ChannelOk.mono {shut' : Prop} (h : ChannelOk p shut c) (hle : shut' → shut) : ChannelOk p shut' c :=
  ⟨h.owed, h.undriven, h.driven, h.faulty, fun hcs hshut => h.closed hcs (hle hshut)⟩

theorem channelOk_off (h : ChannelOk p shut c) : ChannelOk p shut c.off :=
  ⟨h.owed, fun _ => .inl rfl, fun _ hst => by simp [Channel.off] at hst, fun hst => by simp [Channel.off] at hst,
    fun hcs hshut => ⟨.inl rfl, (h.closed hcs hshut).2⟩⟩

theorem channelOk_faulted (kind : FaultKind) : ChannelOk p shut (c.faulted kind) :=
  ⟨Nat.zero_le _, fun _ => .inr (.inr rfl), fun _ hst => by simp [Channel.faulted] at hst, fun _ => ⟨rfl, rfl⟩,
    fun _ _ => ⟨.inr (.inr rfl), rfl, rfl⟩⟩

theorem channelOk_dropWork (h : ChannelOk p shut c) : ChannelOk p shut c.dropWork :=
  ⟨Nat.zero_le _, h.undriven, h.driven, fun _ => ⟨rfl, rfl⟩, fun hcs hshut => ⟨(h.closed hcs hshut).1, rfl, rfl⟩⟩

/-- A channel in COOL that owes nothing and has no train. -/
theorem channelOk_cooled (hcs : p.mode.isCS = true) (hstate : c.state = .cool) (howed : c.repeats = 0)
    (htrain : c.train = none) : ChannelOk p shut c :=
  ⟨by omega, fun h => by simp [hcs] at h, fun _ => by simp [hstate], fun h => by simp [hstate] at h,
    fun _ _ => ⟨.inr (.inl hstate), howed, htrain⟩⟩

end Channel

/-! ### The queue (R9) -/

/-- The pending queue: one entry for each output in QUEUED and no other, each of its output's class, in class
order. -/
structure Lined (s : State) : Prop where
  single : (s.cs.queue.map (·.output)).Nodup
  queued : ∀ n, (s.ch n).state = .queued ↔ ∃ e ∈ s.cs.queue, e.output = n
  classes : ∀ e ∈ s.cs.queue, e.cls = (s.prof e.output).cls
  sorted : s.cs.queue.Pairwise fun a b => a.cls ≤ b.cls

/-- A list without doubles is no longer than a list that has all its members. -/
theorem length_le_of_nodup_subset {α : Type} [DecidableEq α] {l : List α} (hnodup : l.Nodup) :
    ∀ {m : List α}, l ⊆ m → l.length ≤ m.length := by
  induction l with
  | nil => exact fun _ => Nat.zero_le _
  | cons x l ih =>
    intro m hsub
    obtain ⟨hnew, hnodup⟩ := List.nodup_cons.mp hnodup
    have hx : x ∈ m := hsub List.mem_cons_self
    have hrest : l ⊆ m.erase x := fun y hy =>
      (List.mem_erase_of_ne fun heq : y = x => hnew (by rwa [← heq])).mpr (hsub (List.mem_cons_of_mem x hy))
    have hle := ih hnodup hrest
    have hpos := List.length_pos_of_mem hx
    rw [List.length_erase_of_mem hx] at hle
    rw [List.length_cons]
    omega

theorem length_le_of_nodup {n : Nat} {l : List (Fin n)} (h : l.Nodup) : l.length ≤ n := by
  have hle := length_le_of_nodup_subset h fun x _ => List.mem_finRange x
  rwa [List.length_finRange] at hle

theorem queueSound_iff (s : State) : QueueSound s ↔ Lined s := by
  constructor
  · rintro ⟨-, hsingle, hqueued, hclasses, hsorted⟩
    exact ⟨hsingle, hqueued, hclasses, hsorted⟩
  · rintro ⟨hsingle, hqueued, hclasses, hsorted⟩
    have hlength := length_le_of_nodup hsingle
    rw [List.length_map] at hlength
    exact ⟨hlength, hsingle, hqueued, hclasses, hsorted⟩

/-- Entries changed in what is their own, while no output enters or leaves QUEUED. -/
theorem lined_map {s t : State} (h : Lined s) (g : Entry → Entry) (hqueue : t.cs.queue = s.cs.queue.map g)
    (hg : ∀ e, (g e).output = e.output ∧ (g e).cls = e.cls)
    (hstate : ∀ n, (t.ch n).state = .queued ↔ (s.ch n).state = .queued) (hcfg : t.cfg = s.cfg) : Lined t := by
  constructor
  · rw [hqueue, List.map_map]
    rw [show (fun e : Entry => e.output) ∘ g = fun e => e.output from funext fun e => (hg e).1]
    exact h.single
  · intro n
    rw [hstate, h.queued, hqueue]
    constructor
    · rintro ⟨e, he, hout⟩
      exact ⟨g e, List.mem_map_of_mem he, (hg e).1.trans hout⟩
    · rintro ⟨_, he, hout⟩
      obtain ⟨e, hmem, rfl⟩ := List.mem_map.mp he
      exact ⟨e, hmem, (hg e).1.symm.trans hout⟩
  · intro e he
    rw [hqueue] at he
    obtain ⟨x, hx, rfl⟩ := List.mem_map.mp he
    rw [(hg x).1, (hg x).2, h.classes x hx, State.prof, State.prof, hcfg]
  · rw [hqueue, List.pairwise_map]
    simpa only [(hg _).2] using h.sorted

/-- An entry gone, with its output out of QUEUED. -/
theorem lined_remove {s t : State} (h : Lined s) (n : Out)
    (hqueue : t.cs.queue = s.cs.queue.filter (·.output ≠ n)) (hn : (t.ch n).state ≠ .queued)
    (hstate : ∀ m, m ≠ n → (t.ch m).state = (s.ch m).state) (hcfg : t.cfg = s.cfg) : Lined t := by
  have hsub : (s.cs.queue.filter (·.output ≠ n)).Sublist s.cs.queue := List.filter_sublist
  constructor
  · rw [hqueue]
    exact h.single.sublist (hsub.map _)
  · intro m
    rw [hqueue]
    by_cases hm : m = n
    · subst hm
      simp [hn]
    · rw [hstate m hm, h.queued]
      constructor
      · rintro ⟨e, he, rfl⟩
        exact ⟨e, List.mem_filter.mpr ⟨he, by simpa using hm⟩, rfl⟩
      · rintro ⟨e, he, rfl⟩
        exact ⟨e, (List.mem_filter.mp he).1, rfl⟩
  · intro e he
    rw [hqueue] at he
    rw [h.classes e (List.mem_filter.mp he).1, State.prof, State.prof, hcfg]
  · rw [hqueue]
    exact h.sorted.sublist hsub

theorem insertEntry_sorted (e : Entry) (l : List Entry) (h : l.Pairwise fun a b => a.cls ≤ b.cls) :
    (insertEntry e l).Pairwise fun a b => a.cls ≤ b.cls := by
  induction l with
  | nil => exact List.pairwise_singleton _ _
  | cons x rest ih =>
    obtain ⟨hx, hrest⟩ := List.pairwise_cons.mp h
    unfold insertEntry
    split
    next hlt =>
      refine List.pairwise_cons.mpr ⟨fun y hy => ?_, h⟩
      obtain rfl | hy := List.mem_cons.mp hy
      · omega
      · have := hx y hy
        omega
    next hge =>
      refine List.pairwise_cons.mpr ⟨fun y hy => ?_, ih hrest⟩
      obtain rfl | hy := (mem_insertEntry e y rest).mp hy
      · omega
      · exact hx y hy

theorem insertEntry_perm (e : Entry) (l : List Entry) : (insertEntry e l).Perm (e :: l) := by
  induction l with
  | nil => exact .refl _
  | cons x rest ih =>
    unfold insertEntry
    split
    · exact .refl _
    · exact (ih.cons x).trans (.swap e x rest)

/-- A new entry, with its output now in QUEUED. -/
theorem lined_insert {s t : State} (h : Lined s) (e : Entry) (hqueue : t.cs.queue = insertEntry e s.cs.queue)
    (hbefore : (s.ch e.output).state ≠ .queued) (hafter : (t.ch e.output).state = .queued)
    (hclass : e.cls = (s.prof e.output).cls) (hstate : ∀ m, m ≠ e.output → (t.ch m).state = (s.ch m).state)
    (hcfg : t.cfg = s.cfg) : Lined t := by
  have hnew : ∀ x ∈ s.cs.queue, x.output ≠ e.output := fun x hx heq => hbefore ((h.queued _).mpr ⟨x, hx, heq⟩)
  constructor
  · rw [hqueue, ((insertEntry_perm e s.cs.queue).map _).nodup_iff, List.map_cons, List.nodup_cons]
    refine ⟨fun hmem => ?_, h.single⟩
    obtain ⟨x, hx, heq⟩ := List.mem_map.mp hmem
    exact hnew x hx heq
  · intro m
    rw [hqueue]
    simp only [mem_insertEntry, or_and_right, exists_or]
    by_cases hm : m = e.output
    · subst hm
      simp [hafter]
    · rw [hstate m hm, h.queued]
      simp [Ne.symm hm]
  · intro x hx
    rw [hqueue] at hx
    rw [State.prof, hcfg]
    obtain rfl | hx := (mem_insertEntry e x _).mp hx
    · exact hclass
    · exact h.classes x hx
  · rw [hqueue]
    exact insertEntry_sorted e _ h.sorted

/-! ### The parts together -/

/-- Queue, outputs and records; `shut n` says that the class of output n is closed. -/
structure Ranks (shut : Out → Prop) (s : State) : Prop where
  lined : Lined s
  outputs : ∀ n, ChannelOk (s.prof n) (shut n) (s.ch n)
  records : ∀ i, (s.db.standing.get i).present = false → (s.db.standing.get i).draw = 0
  own : ∃ i : Fin 63, s.own.toNat = i.val ∧ (s.db.standing.get i).present = true

/-- With what is said of the claim in flight. -/
structure Core (shut : Out → Prop) (s : State) : Prop where
  ranks : Ranks shut s
  flight : FlightSound s

/-- With what is said of the own record. -/
structure Full (shut : Out → Prop) (s : State) : Prop where
  core : Core shut s
  standing : StandingSound s

theorem Core.lined {shut : Out → Prop} {s : State} (h : Core shut s) : Lined s := h.ranks.lined

theorem Core.output {shut : Out → Prop} {s : State} (h : Core shut s) (n : Out) :
    ChannelOk (s.prof n) (shut n) (s.ch n) := h.ranks.outputs n

theorem Full.output {shut : Out → Prop} {s : State} (h : Full shut s) (n : Out) :
    ChannelOk (s.prof n) (shut n) (s.ch n) := h.core.ranks.outputs n

theorem flight_of_none {s : State} (hclaim : s.db.claim = none) (h : ∀ e ∈ s.cs.queue, e.inFlight = false) :
    FlightSound s := by
  refine ⟨fun e he hf => ?_, fun c hc => ?_⟩
  · rw [h e he] at hf
    cases hf
  · rw [hclaim] at hc
    cases hc

theorem noFlight_of_none {s : State} (h : FlightSound s) (hclaim : s.db.claim = none) :
    ∀ e ∈ s.cs.queue, e.inFlight = false := by
  intro e he
  refine Classical.byContradiction fun hf => ?_
  obtain ⟨c, hc, -⟩ := h.1 e he (by simpa using hf)
  rw [hclaim] at hc
  cases hc

/-! ### The hold draws (R64) -/

/-- The hold draw that output n adds to the own standing draw. -/
def heldIn (s : State) (n : Out) : Nat :=
  if (s.ch n).state = .hold ∧ (s.prof n).mode.isCS then (s.ch n).holdDraw else 0

theorem holdSum_eq_held (s : State) : s.holdSum = min 4095 ((List.finRange 16).map (heldIn s)).sum := rfl

theorem holdSum_of_zero {s : State} (h : ∀ n, heldIn s n = 0) : s.holdSum = 0 := by
  rw [holdSum_eq_held, funext h]
  rfl

theorem standingSound_iff (s : State) :
    StandingSound s ↔ ∀ i : Fin 63, s.own.toNat = i.val → (s.db.standing.get i).draw = s.holdSum := Iff.rfl

theorem heldIn_of_ne {s : State} {n : Out} (h : (s.ch n).state ≠ .hold) : heldIn s n = 0 :=
  if_neg fun hn => h hn.1

/-- Hold draws, records and number are left as they were. -/
structure Holds (s t : State) : Prop where
  held : ∀ n, heldIn t n = heldIn s n
  standing : t.db.standing = s.db.standing
  number : t.own = s.own

theorem Holds.refl (s : State) : Holds s s := ⟨fun _ => rfl, rfl, rfl⟩

theorem Holds.trans {s t u : State} (h : Holds s t) (k : Holds t u) : Holds s u :=
  ⟨fun n => (k.held n).trans (h.held n), k.standing.trans h.standing, k.number.trans h.number⟩

theorem Holds.holdSum {s t : State} (h : Holds s t) : t.holdSum = s.holdSum := by
  rw [holdSum_eq_held, holdSum_eq_held, funext h.held]

theorem Holds.sound {s t : State} (h : Holds s t) (hs : StandingSound s) : StandingSound t := by
  rw [standingSound_iff] at *
  rw [h.number, h.standing, h.holdSum]
  exact hs

/-- An output that is in HOLD neither before nor after. -/
theorem holds_updCh {s : State} {n : Out} {f : Channel → Channel}
    (h : ((f (s.ch n)).state = .hold ↔ (s.ch n).state = .hold) ∧
      ((s.ch n).state = .hold → (f (s.ch n)).holdDraw = (s.ch n).holdDraw)) : Holds s (s.updCh n f) := by
  refine ⟨fun m => ?_, rfl, rfl⟩
  unfold heldIn
  rw [updCh_ch, updCh_prof]
  by_cases hm : m = n
  · subst hm
    rw [if_pos rfl]
    by_cases hhold : (s.ch m).state = .hold
    · simp [h.1.mpr hhold, hhold, h.2 hhold]
    · simp [hhold, mt h.1.mp hhold]
  · rw [if_neg hm]

/-! ### A channel changed -/

theorem ranks_of_channel {shut : Out → Prop} {s t : State} (h : Ranks shut s) (hlined : Lined t)
    (hok : ∀ n, ChannelOk (s.prof n) (shut n) (t.ch n)) (hcfg : t.cfg = s.cfg) (hsl : t.sl = s.sl)
    (hstanding : t.db.standing = s.db.standing) : Ranks shut t := by
  refine ⟨hlined, fun n => ?_, ?_, ?_⟩
  · rw [State.prof, hcfg]
    exact hok n
  · rw [hstanding]
    exact h.records
  · rw [State.own, hsl, hstanding]
    exact h.own

theorem ranks_updCh {shut : Out → Prop} {s : State} (h : Ranks shut s) {n : Out} {f : Channel → Channel}
    (hqueued : (f (s.ch n)).state = .queued ↔ (s.ch n).state = .queued)
    (hok : ChannelOk (s.prof n) (shut n) (f (s.ch n))) : Ranks shut (s.updCh n f) := by
  refine ranks_of_channel h (lined_map h.lined id (by simp) (fun _ => ⟨rfl, rfl⟩) (fun m => ?_) rfl) (fun m => ?_)
    rfl rfl rfl
  · rw [updCh_ch]
    split
    next hm =>
      subst hm
      exact hqueued
    next => exact Iff.rfl
  · rw [updCh_ch]
    split
    next hm =>
      subst hm
      exact hok
    next => exact h.outputs m

theorem core_updCh {shut : Out → Prop} {s : State} (h : Core shut s) {n : Out} {f : Channel → Channel}
    (hqueued : (f (s.ch n)).state = .queued ↔ (s.ch n).state = .queued)
    (hok : ChannelOk (s.prof n) (shut n) (f (s.ch n))) : Core shut (s.updCh n f) :=
  ⟨ranks_updCh h.ranks hqueued hok, h.flight⟩

/-- A channel whose state and hold draw stay. -/
theorem full_updCh {shut : Out → Prop} {s : State} (h : Full shut s) {n : Out} {f : Channel → Channel}
    (hstate : (f (s.ch n)).state = (s.ch n).state) (hdraw : (f (s.ch n)).holdDraw = (s.ch n).holdDraw)
    (hok : ChannelOk (s.prof n) (shut n) (f (s.ch n))) : Full shut (s.updCh n f) :=
  ⟨core_updCh h.core (by rw [hstate]) hok, (holds_updCh ⟨by rw [hstate], fun _ => hdraw⟩).sound h.standing⟩

/-- A channel that is in neither QUEUED nor HOLD, before and after. -/
theorem full_updCh_move {shut : Out → Prop} {s : State} (h : Full shut s) {n : Out} {f : Channel → Channel}
    (hbefore : (s.ch n).state ≠ .queued ∧ (s.ch n).state ≠ .hold)
    (hafter : (f (s.ch n)).state ≠ .queued ∧ (f (s.ch n)).state ≠ .hold)
    (hok : ChannelOk (s.prof n) (shut n) (f (s.ch n))) : Full shut (s.updCh n f) :=
  ⟨core_updCh h.core (by simp [hbefore.1, hafter.1]) hok,
    (holds_updCh ⟨by simp [hbefore.2, hafter.2], fun hhold => absurd hhold hbefore.2⟩).sound h.standing⟩

/-! ### Claims and selection (R12, R56, R58, R63) -/

/-- Entries changed in what is neither their output, their class nor their claim. -/
theorem full_entries {shut : Out → Prop} {s : State} (h : Full shut s) (g : Entry → Entry)
    (hg : ∀ e, (g e).output = e.output ∧ (g e).cls = e.cls) (hflight : ∀ e, (g e).inFlight = e.inFlight) :
    Full shut { s with cs := { s.cs with queue := s.cs.queue.map g } } := by
  obtain ⟨⟨hranks, hclaimed, hclaim⟩, hstanding⟩ := h
  refine ⟨⟨⟨lined_map hranks.lined g rfl hg (fun _ => Iff.rfl) rfl, hranks.outputs, hranks.records, hranks.own⟩,
    ?_, ?_⟩, hstanding⟩
  · intro e he hf
    obtain ⟨x, hx, rfl⟩ := List.mem_map.mp he
    rw [hflight] at hf
    rw [(hg x).1]
    exact hclaimed x hx hf
  · intro c hc hw
    obtain ⟨e, he, hout, hf⟩ := hclaim c hc hw
    exact ⟨g e, List.mem_map_of_mem he, (hg e).1.trans hout, (hflight e).trans hf⟩

theorem claimOf_withdrawn (s : State) (e : Entry) : (s.claimOf e).withdrawn = false := by
  unfold State.claimOf
  dsimp only
  split <;> rfl

theorem core_placeClaim {shut : Out → Prop} {s : State} (h : Core shut s) (hclaim : s.db.claim = none)
    {e : Entry} (he : e ∈ s.cs.queue) : Core shut (placeClaim s e) := by
  let g (x : Entry) : Entry := if x.output = e.output then x.claimed else x
  have hg (x : Entry) : (g x).output = x.output ∧ (g x).cls = x.cls := by
    show (if _ then _ else _ : Entry).output = _ ∧ (if _ then _ else _ : Entry).cls = _
    split <;> exact ⟨rfl, rfl⟩
  have hchan (n : Out) : (placeClaim s e).ch n =
      if n = e.output then (s.ch e.output).figures (s.claimOf e).t (s.claimOf e).draw else s.ch n :=
    updCh_ch (s.updEntry e.output Entry.claimed) e.output n (·.figures (s.claimOf e).t (s.claimOf e).draw)
  refine ⟨ranks_of_channel h.ranks (lined_map h.lined g rfl hg ?_ rfl) ?_ rfl rfl rfl, ?_, ?_⟩
  · intro n
    rw [placeClaim_state]
  · intro n
    rw [hchan]
    split
    next hn =>
      subst hn
      exact (h.output _).congr rfl rfl rfl
    next => exact h.output n
  · intro x hx hf
    obtain ⟨y, hy, rfl⟩ := List.mem_map.mp (show x ∈ s.cs.queue.map g from hx)
    have hy' := noFlight_of_none h.flight hclaim y hy
    by_cases hout : y.output = e.output
    · refine ⟨s.claimOf e, rfl, ?_, claimOf_withdrawn s e⟩
      rw [(hg y).1, hout, claimOf_output]
    · rw [show g y = y from if_neg hout, hy'] at hf
      cases hf
  · intro c hc _
    obtain rfl : s.claimOf e = c := Option.some.inj hc
    refine ⟨g e, List.mem_map_of_mem he, ?_, ?_⟩
    · rw [(hg e).1, claimOf_output]
    · rw [show g e = e.claimed from if_pos rfl]
      rfl

theorem holds_placeClaim (s : State) (e : Entry) : Holds s (placeClaim s e) := by
  have h := holds_updCh (s := s.updEntry e.output Entry.claimed) (n := e.output)
    (f := (·.figures (s.claimOf e).t (s.claimOf e).draw)) ⟨Iff.rfl, fun _ => rfl⟩
  exact ⟨h.held, h.standing, h.number⟩

theorem ranks_grant {shut : Out → Prop} {s : State} (h : Ranks shut s) {c : Claim}
    (hqueued : (s.ch c.output).state = .queued) (at_ : Tick) : Ranks shut (grant s c at_) := by
  have hchan (n : Out) : (grant s c at_).ch n = if n = c.output then (s.ch c.output).granted c at_ else s.ch n :=
    updCh_ch (s.removeEntry c.output) _ _ _
  refine ranks_of_channel h (lined_remove h.lined c.output rfl ?_ (fun m hm => ?_) rfl) (fun n => ?_) rfl rfl rfl
  · rw [hchan, if_pos rfl]
    simp [Channel.granted, Channel.powerOn]
  · rw [hchan, if_neg hm]
  · rw [hchan]
    split
    next hn =>
      subst hn
      have hok := h.outputs c.output
      obtain ⟨hcs, hopen⟩ := hok.of_works (.inl hqueued)
      exact channelOk_of_open hcs hopen hok.owed (by simp [Channel.granted, Channel.powerOn])
        (by simp [Channel.granted, Channel.powerOn])
    next => exact h.outputs n

/-- A claim decided, the claim in flight being clear already. Its output's entry leaves the queue or returns to it. -/
theorem core_decide {shut : Out → Prop} {s : State} (h : Ranks shut s) (hnone : s.db.claim = none) {c : Claim}
    (hflight : ∀ e ∈ s.cs.queue, e.inFlight = true → e.output = c.output ∧ c.withdrawn = false)
    (hqueued : c.withdrawn = false → (s.ch c.output).state = .queued) (at_ : Tick) :
    Core shut (decide_ s c at_) ∧ Holds s (decide_ s c at_) := by
  have hkept (hw : c.withdrawn = true) : ∀ e ∈ s.cs.queue, e.inFlight = false := by
    intro e he
    refine Classical.byContradiction fun hf => ?_
    simp [hw] at hflight
    exact hf (hflight e he)
  unfold decide_
  split
  · split
    next hw =>
      refine ⟨⟨?_, flight_of_none hnone (hkept hw)⟩, ⟨fun _ => rfl, rfl, rfl⟩⟩
      exact ⟨⟨h.lined.single, h.lined.queued, h.lined.classes, h.lined.sorted⟩, h.outputs, h.records, h.own⟩
    next hw =>
      have hstate := hqueued (by simpa using hw)
      have hadded : Ranks shut (addOwnEntry s c at_) :=
        ⟨⟨h.lined.single, h.lined.queued, h.lined.classes, h.lined.sorted⟩, h.outputs, h.records, h.own⟩
      refine ⟨⟨ranks_grant hadded hstate at_, flight_of_none hnone fun e he => ?_⟩, ?_⟩
      · have hmem : e ∈ s.cs.queue.filter (·.output ≠ c.output) := he
        obtain ⟨he, hne⟩ := List.mem_filter.mp hmem
        refine Classical.byContradiction fun hf => ?_
        simp only [decide_eq_true_eq] at hne
        exact hne (hflight e he (by simpa using hf)).1
      · have hmoved := holds_updCh (s := (addOwnEntry s c at_).removeEntry c.output) (n := c.output)
          (f := (·.granted c at_)) ?_
        · exact ⟨hmoved.held, hmoved.standing, hmoved.number⟩
        · have hbefore : (((addOwnEntry s c at_).removeEntry c.output).ch c.output).state = .queued := hstate
          rw [hbefore]
          exact ⟨⟨nofun, nofun⟩, nofun⟩
  · split
    next hw => exact ⟨⟨h, flight_of_none hnone (hkept hw)⟩, .refl _⟩
    next hw =>
      let g (x : Entry) : Entry := if x.output = c.output then x.parked else x
      have hg (x : Entry) : (g x).output = x.output ∧ (g x).cls = x.cls := by
        show (if _ then _ else _ : Entry).output = _ ∧ (if _ then _ else _ : Entry).cls = _
        split <;> exact ⟨rfl, rfl⟩
      refine ⟨⟨⟨lined_map h.lined g rfl hg (fun _ => Iff.rfl) rfl, h.outputs, h.records, h.own⟩,
        flight_of_none hnone fun e he => ?_⟩, ⟨fun _ => rfl, rfl, rfl⟩⟩
      obtain ⟨x, hx, rfl⟩ := List.mem_map.mp (show e ∈ s.cs.queue.map g from he)
      by_cases hout : x.output = c.output
      · rw [show g x = x.parked from if_pos hout]
        rfl
      · rw [show g x = x from if_neg hout]
        refine Classical.byContradiction fun hf => ?_
        exact hout (hflight x hx (by simpa using hf)).1

theorem core_selectLoop {shut : Out → Prop} (k : Nat) :
    ∀ {s : State}, Core shut s → Core shut (selectLoop k s) ∧ Holds s (selectLoop k s) := by
  induction k with
  | zero => exact fun h => ⟨h, .refl _⟩
  | succ k ih =>
    intro s h
    unfold selectLoop
    split
    · exact ⟨h, .refl _⟩
    next hclaim =>
    have hnone : s.db.claim = none := by simpa using hclaim
    split
    · exact ⟨h, .refl _⟩
    next e hfind =>
    have he : e ∈ s.cs.queue := unblocked_subset _ (List.mem_of_find?_eq_some hfind)
    split
    · have hqueued : (s.ch (s.claimOf e).output).state = .queued := by
        rw [claimOf_output]
        exact (h.lined.queued _).mpr ⟨e, he, rfl⟩
      obtain ⟨hcore, hholds⟩ := core_decide h.ranks hnone (c := s.claimOf e)
        (fun x hx hf => by rw [noFlight_of_none h.flight hnone x hx] at hf; cases hf) (fun _ => hqueued) s.tick
      obtain ⟨hcore', hholds'⟩ := ih hcore
      exact ⟨hcore', hholds.trans hholds'⟩
    · exact ⟨core_placeClaim h hnone he, holds_placeClaim s e⟩

theorem core_select {shut : Out → Prop} {s : State} (h : Core shut s) : Core shut (select s) :=
  (core_selectLoop _ h).1

theorem full_select {shut : Out → Prop} {s : State} (h : Full shut s) : Full shut (select s) :=
  ⟨core_select h.core, (core_selectLoop _ h.core).2.sound h.standing⟩

theorem full_viewDecrease {shut : Out → Prop} {s : State} (h : Full shut s) : Full shut (viewDecrease s) :=
  full_select (full_entries h _ (fun _ => ⟨rfl, rfl⟩) fun _ => rfl)

/-- The claim in flight decided (R58, R61, R63). -/
theorem full_decideClaim {shut : Out → Prop} {s : State} (h : Full shut s) (at_ : Tick) :
    Full shut (decideClaim s at_) := by
  unfold decideClaim
  split
  case h_2 => exact h
  case h_1 c hclaim =>
    obtain ⟨⟨hranks, hclaimed, hentry⟩, hstanding⟩ := h
    have hranks' : Ranks shut s.noClaim :=
      ⟨⟨hranks.lined.single, hranks.lined.queued, hranks.lined.classes, hranks.lined.sorted⟩, hranks.outputs,
        hranks.records, hranks.own⟩
    have hone : ∀ e ∈ s.noClaim.cs.queue, e.inFlight = true → e.output = c.output ∧ c.withdrawn = false := by
      intro e he hf
      obtain ⟨c', hc', hout, hw⟩ := hclaimed e he hf
      rw [hclaim] at hc'
      obtain rfl := Option.some.inj hc'
      exact ⟨hout.symm, hw⟩
    have hqueued : c.withdrawn = false → (s.noClaim.ch c.output).state = .queued := by
      intro hw
      obtain ⟨e, he, hout, -⟩ := hentry c hclaim hw
      exact (hranks.lined.queued _).mpr ⟨e, he, hout⟩
    obtain ⟨hcore, hholds⟩ := core_decide hranks' rfl hone hqueued at_
    have hholds' : Holds s s.noClaim := ⟨fun _ => rfl, rfl, rfl⟩
    exact ⟨hcore, (hholds'.trans hholds).sound hstanding⟩

/-- The claim in flight cleared, its entry returned (R62, R67). -/
theorem full_clearClaim {shut : Out → Prop} {s : State} (h : Full shut s) : Full shut (clearClaim s) := by
  unfold clearClaim
  split
  case h_2 => exact h
  case h_1 c hclaim =>
    obtain ⟨⟨hranks, hclaimed, hentry⟩, hstanding⟩ := h
    have hone : ∀ e ∈ s.cs.queue, e.inFlight = true → e.output = c.output ∧ c.withdrawn = false := by
      intro e he hf
      obtain ⟨c', hc', hout, hw⟩ := hclaimed e he hf
      rw [hclaim] at hc'
      obtain rfl := Option.some.inj hc'
      exact ⟨hout.symm, hw⟩
    dsimp only
    split
    next hw =>
      refine ⟨⟨⟨⟨hranks.lined.single, hranks.lined.queued, hranks.lined.classes, hranks.lined.sorted⟩,
        hranks.outputs, hranks.records, hranks.own⟩, flight_of_none rfl fun e he => ?_⟩, hstanding⟩
      refine Classical.byContradiction fun hf => ?_
      rw [(hone e he (by simpa using hf)).2] at hw
      cases hw
    next hw =>
      let g (x : Entry) : Entry := if x.output = c.output then x.returned else x
      have hg (x : Entry) : (g x).output = x.output ∧ (g x).cls = x.cls := by
        show (if _ then _ else _ : Entry).output = _ ∧ (if _ then _ else _ : Entry).cls = _
        split <;> exact ⟨rfl, rfl⟩
      refine ⟨⟨⟨lined_map hranks.lined g rfl hg (fun _ => Iff.rfl) rfl, hranks.outputs, hranks.records, hranks.own⟩,
        flight_of_none rfl fun e he => ?_⟩, hstanding⟩
      obtain ⟨x, hx, rfl⟩ := List.mem_map.mp (show e ∈ s.cs.queue.map g from he)
      by_cases hout : x.output = c.output
      · rw [show g x = x.returned from if_pos hout]
        rfl
      · rw [show g x = x from if_neg hout]
        refine Classical.byContradiction fun hf => ?_
        exact hout (hone x hx (by simpa using hf)).1

end Sys2Proof.Proofs
end

section
/-! What is said of outputs, queue, claim and own record (O4): the coil sequencer's operations keep it. -/

namespace Sys2Proof.Proofs
open Sys2Proof.Machine

variable {shut : Out → Prop} {s : State}

/-! ### What is not spoken of -/

/-- Of what the statements on outputs, queue, claim, flippers and records speak of, `t` has all that `s` has: a record
may have become present, nothing else differs. -/
structure Alike (s t : State) : Prop where
  cfg : t.cfg = s.cfg
  station : t.sl.station = s.sl.station
  number : t.sl.number = s.sl.number
  chan : ∀ n, (t.ch n).state = (s.ch n).state ∧ (t.ch n).repeats = (s.ch n).repeats ∧
    (t.ch n).train = (s.ch n).train ∧ (t.ch n).holdDraw = (s.ch n).holdDraw
  queue : t.cs.queue = s.cs.queue
  claim : t.db.claim = s.db.claim
  standing : ∀ i, (t.db.standing.get i).draw = (s.db.standing.get i).draw ∧
    ((s.db.standing.get i).present = true → (t.db.standing.get i).present = true)
  flippers : ∀ f, (t.fl.get f).state = (s.fl.get f).state
  play : t.pc.state = s.pc.state
  stopped : t.pc.stopped = s.pc.stopped

/-- A change outside the coil sequencer's queue and channels, the budget's claim and records, flippers, play state,
settings and station. -/
theorem alike_of_eq {s t : State} (hcfg : t.cfg = s.cfg) (hstation : t.sl.station = s.sl.station)
    (hnumber : t.sl.number = s.sl.number) (hchan : t.cs.chan = s.cs.chan) (hqueue : t.cs.queue = s.cs.queue)
    (hclaim : t.db.claim = s.db.claim) (hstanding : t.db.standing = s.db.standing) (hfl : t.fl = s.fl)
    (hpc : t.pc = s.pc) : Alike s t := by
  refine ⟨hcfg, hstation, hnumber, fun n => ?_, hqueue, hclaim, fun i => ?_, fun f => ?_, ?_, ?_⟩
  · rw [State.ch, State.ch, hchan]
    exact ⟨rfl, rfl, rfl, rfl⟩
  · rw [hstanding]
    exact ⟨rfl, id⟩
  · rw [hfl]
  · rw [hpc]
  · rw [hpc]

theorem Alike.refl (s : State) : Alike s s := alike_of_eq rfl rfl rfl rfl rfl rfl rfl rfl rfl

section Alike

variable {t : State} (h : Alike s t)
include h

theorem Alike.state (n : Out) : (t.ch n).state = (s.ch n).state := (h.chan n).1

theorem Alike.prof (n : Out) : t.prof n = s.prof n := by rw [State.prof, State.prof, h.cfg]

theorem Alike.own : t.own = s.own := h.number

theorem Alike.heldIn (n : Out) : heldIn t n = Proofs.heldIn s n := by
  unfold Proofs.heldIn
  rw [h.state, h.prof, (h.chan n).2.2.2]

theorem Alike.lined (hs : Lined s) : Lined t := by
  obtain ⟨hsingle, hqueued, hclasses, hsorted⟩ := hs
  refine ⟨?_, ?_, ?_, ?_⟩
  · rwa [h.queue]
  · simpa only [h.queue, h.state] using hqueued
  · simpa only [h.queue, h.prof] using hclasses
  · rwa [h.queue]

theorem Alike.flight (hs : FlightSound s) : FlightSound t := by
  unfold FlightSound at *
  rwa [h.queue, h.claim]

theorem Alike.standingSound (hs : StandingSound s) : StandingSound t := by
  rw [standingSound_iff, h.own, holdSum_eq_held, funext h.heldIn]
  exact fun i hi => (h.standing i).1.trans (hs i hi)

theorem Alike.channel {sh : Prop} {n : Out} (hs : ChannelOk (s.prof n) sh (s.ch n)) :
    ChannelOk (t.prof n) sh (t.ch n) := by
  obtain ⟨hstate, howed, htrain, -⟩ := h.chan n
  rw [h.prof]
  exact hs.congr hstate howed htrain

/-- A record that is not present now was not before. -/
theorem Alike.absent {i : Fin 63} (hi : (t.db.standing.get i).present = false) :
    (s.db.standing.get i).present = false := by
  refine Classical.byContradiction fun hnot => ?_
  rw [(h.standing i).2 (by simpa using hnot)] at hi
  cases hi

theorem Alike.ownPresent (hs : ∃ i : Fin 63, s.own.toNat = i.val ∧ (s.db.standing.get i).present = true) :
    ∃ i : Fin 63, t.own.toNat = i.val ∧ (t.db.standing.get i).present = true := by
  obtain ⟨i, hi, hpresent⟩ := hs
  exact ⟨i, by rw [h.own, hi], (h.standing i).2 hpresent⟩

theorem Alike.full (hs : Full shut s) : Full shut t := by
  obtain ⟨⟨⟨hlined, houtputs, hrecords, hown⟩, hflight⟩, hstanding⟩ := hs
  exact ⟨⟨⟨h.lined hlined, fun n => h.channel (houtputs n),
    fun i hi => (h.standing i).1.trans (hrecords i (h.absent hi)), h.ownPresent hown⟩, h.flight hflight⟩,
    h.standingSound hstanding⟩

end Alike

theorem alike_hand (s : State) (f : Frame) : Alike s (s.hand f) := alike_of_eq rfl rfl rfl rfl rfl rfl rfl rfl rfl

theorem alike_announce (s : State) : Alike s (announceStanding s) := by
  unfold announceStanding
  split <;> exact alike_of_eq rfl rfl rfl rfl rfl rfl rfl rfl rfl

theorem alike_busyDropped (s : State) : Alike s s.busyDropped := alike_of_eq rfl rfl rfl rfl rfl rfl rfl rfl rfl

theorem full_busyDropped (h : Full shut s) : Full shut s.busyDropped := (alike_busyDropped s).full h

/-! ### The own standing draw (R64) -/

theorem setOwnDraw_holds_held (s : State) (d : Nat) : (s.setOwnDraw d).holdSum = s.holdSum := by
  unfold State.setOwnDraw
  split <;> rfl

/-- The own record takes the sum of the hold draws. -/
theorem full_setOwnDraw (h : Core shut s) : Full shut (s.setOwnDraw s.holdSum) := by
  obtain ⟨i, hi, hpresent⟩ := h.ranks.own
  rw [setOwnDraw_of_number s hi]
  refine ⟨⟨⟨⟨h.lined.single, h.lined.queued, h.lined.classes, h.lined.sorted⟩, h.ranks.outputs, fun j hj => ?_,
    ⟨i, hi, ?_⟩⟩, h.flight⟩, fun j hj => ?_⟩
  · rw [Bank.get_set] at hj ⊢
    split
    next hij =>
      rw [if_pos hij] at hj
      exact absurd (hpresent.symm.trans hj) (by decide)
    next hij =>
      rw [if_neg hij] at hj
      exact h.ranks.records j hj
  · rw [Bank.get_set_self]
    exact hpresent
  · obtain rfl : j = i := Fin.ext (hj.symm.trans hi)
    rw [Bank.get_set_self]
    rfl

/-- The own standing draw computed anew is that of the outputs in HOLD. -/
theorem full_updateStanding (h : Core shut s) : Full shut (updateStanding s) := by
  have hset := (alike_announce _).full (full_setOwnDraw h)
  unfold updateStanding
  split
  next hsame =>
    refine ⟨h, fun i hi => ?_⟩
    rw [← ownDraw_of_number s hi, ← hsame]
    rfl
  · split
    · exact full_viewDecrease hset
    · exact hset

/-! ### Joining and leaving the queue (R9, R13) -/

theorem full_enqueue (h : Full shut s) {n : Out} (hqueued : (s.ch n).state ≠ .queued)
    (hhold : (s.ch n).state ≠ .hold) (hcs : (s.prof n).mode.isCS = true) (hopen : ¬ shut n) (burst : Bool)
    (override : Option Nat) : Full shut (enqueue s n burst override) := by
  let e : Entry := ⟨n, (s.prof n).cls, s.tick, burst, false, false, false, override⟩
  let t := (s.updCh n (·.to .queued)).join e
  have hchan (m : Out) : t.ch m = if m = n then (s.ch n).to .queued else s.ch m :=
    updCh_ch s n m (·.to .queued)
  have hranks : Ranks shut t := by
    refine ranks_of_channel h.core.ranks (lined_insert h.core.lined e rfl hqueued ?_ rfl (fun m hm => ?_) rfl)
      (fun m => ?_) rfl rfl rfl
    · show (t.ch n).state = .queued
      rw [hchan, if_pos rfl]
      rfl
    · rw [hchan, if_neg hm]
    · rw [hchan]
      split
      next hm =>
        subst hm
        exact channelOk_of_open hcs hopen (h.output m).owed (by simp [Channel.to]) (by simp [Channel.to])
      next => exact h.output m
  have hflight : FlightSound t := by
    refine ⟨fun x hx hf => ?_, fun c hc hw => ?_⟩
    · obtain rfl | hx := (mem_insertEntry e x _).mp hx
      · cases hf
      · exact h.core.flight.1 x hx hf
    · obtain ⟨x, hx, hout, hf⟩ := h.core.flight.2 c hc hw
      exact ⟨x, (mem_insertEntry e x _).mpr (.inr hx), hout, hf⟩
  have hholds : Holds s t := by
    have hmoved := holds_updCh (s := s) (n := n) (f := (·.to .queued)) ⟨by simp [Channel.to, hhold], fun h => absurd h hhold⟩
    exact ⟨hmoved.held, hmoved.standing, hmoved.number⟩
  exact full_select ⟨⟨hranks, hflight⟩, hholds.sound h.standing⟩

theorem withdrawClaim_standing (s : State) (n : Out) : (withdrawClaim s n).db.standing = s.db.standing := by
  unfold withdrawClaim
  repeat' split
  all_goals rfl

/-- The claims that a withdrawal for output n leaves in force: those of other outputs. -/
theorem withdrawClaim_claim (s : State) (n : Out) (c : Claim) (hw : c.withdrawn = false) :
    (withdrawClaim s n).db.claim = some c ↔ s.db.claim = some c ∧ c.output ≠ n := by
  unfold withdrawClaim
  cases hclaim : s.db.claim with
  | none => simp [hclaim]
  | some c' =>
    dsimp only
    by_cases hout : c'.output = n
    · have hnot : ¬ (some c' = some c ∧ c.output ≠ n) := by
        rintro ⟨heq, hne⟩
        obtain rfl := Option.some.inj heq
        exact hne hout
      rw [if_pos hout, iff_false_right hnot]
      split
      · split
        · rintro ⟨rfl⟩
          cases hw
        · exact nofun
      · exact nofun
    · rw [if_neg hout, hclaim]
      refine ⟨fun h => ⟨h, ?_⟩, fun h => h.1⟩
      obtain rfl := Option.some.inj h
      exact hout

theorem dequeue_cfg (s : State) (n : Out) : (dequeue s n).cfg = s.cfg := by rw [coilWork_dequeue s n]

theorem dequeue_sl (s : State) (n : Out) : (dequeue s n).sl = s.sl := by rw [coilWork_dequeue s n]

/-- An output that is moved out of QUEUED, or was not in it, has left the queue and its claim is withdrawn. -/
theorem core_dequeue (h : Core shut s) {n : Out} {f : Channel → Channel}
    (hstate : (f (s.ch n)).state ≠ .queued) (hok : ChannelOk (s.prof n) (shut n) (f (s.ch n))) :
    Core shut (dequeue (s.updCh n f) n) := by
  have hqueue : (dequeue (s.updCh n f) n).cs.queue = s.cs.queue.filter (·.output ≠ n) := by
    rw [dequeue_cs]
    rfl
  have hchan (m : Out) : (dequeue (s.updCh n f) n).ch m = if m = n then f (s.ch n) else s.ch m := by
    rw [dequeue_ch, updCh_ch]
  have hmem (e : Entry) : e ∈ s.cs.queue.filter (·.output ≠ n) ↔ e ∈ s.cs.queue ∧ e.output ≠ n := by
    rw [List.mem_filter, decide_eq_true_eq]
  refine ⟨ranks_of_channel h.ranks (lined_remove h.lined n hqueue ?_ (fun m hm => ?_) (dequeue_cfg _ n)) (fun m => ?_)
    (dequeue_cfg _ n) (dequeue_sl _ n) (withdrawClaim_standing _ n), ?_, ?_⟩
  · rw [hchan, if_pos rfl]
    exact hstate
  · rw [hchan, if_neg hm]
  · rw [hchan]
    split
    next hm =>
      subst hm
      exact hok
    next => exact h.output m
  · intro e he hf
    rw [hqueue, hmem] at he
    obtain ⟨c, hc, hout, hw⟩ := h.flight.1 e he.1 hf
    exact ⟨c, (withdrawClaim_claim _ n c hw).mpr ⟨hc, by rw [hout]; exact he.2⟩, hout, hw⟩
  · intro c hc hw
    obtain ⟨hc, hne⟩ := (withdrawClaim_claim _ n c hw).mp hc
    obtain ⟨e, he, hout, hf⟩ := h.flight.2 c hc hw
    refine ⟨e, ?_, hout, hf⟩
    rw [hqueue, hmem]
    exact ⟨he, by rw [hout]; exact hne⟩

theorem holds_dequeue (s : State) (n : Out) : Holds s (dequeue s n) := by
  refine ⟨fun m => ?_, withdrawClaim_standing _ n, ?_⟩
  · unfold heldIn
    rw [dequeue_ch, State.prof, State.prof, dequeue_cfg]
  · rw [State.own, State.own, dequeue_sl]

/-- The same for an output that is in HOLD neither before nor after. -/
theorem full_dequeue (h : Full shut s) {n : Out} {f : Channel → Channel}
    (hbefore : (s.ch n).state ≠ .hold) (hafter : (f (s.ch n)).state ≠ .queued ∧ (f (s.ch n)).state ≠ .hold)
    (hok : ChannelOk (s.prof n) (shut n) (f (s.ch n))) : Full shut (dequeue (s.updCh n f) n) := by
  refine ⟨core_dequeue h.core hafter.1 hok, Holds.sound ?_ h.standing⟩
  exact (holds_updCh ⟨by simp [hbefore, hafter.2], fun hhold => absurd hhold hbefore⟩).trans (holds_dequeue _ n)

/-- A withdrawal reads neither outputs nor queue, so a channel may be changed before or after it. -/
theorem updCh_dequeue (s : State) (n : Out) (f : Channel → Channel) :
    (dequeue s n).updCh n f = dequeue (s.updCh n f) n := by
  rw [dequeue_eq, dequeue_eq, updCh_eq_withChan, updCh_eq_withChan, unqueued_ch, unqueued_withChan]

/-! ### The phases of an output -/

theorem full_off (h : Full shut s) {n : Out} (hqueued : (s.ch n).state ≠ .queued) (hhold : (s.ch n).state ≠ .hold) :
    Full shut (toOff s n) :=
  full_updCh_move h ⟨hqueued, hhold⟩ ⟨nofun, nofun⟩ (channelOk_off (h.output n))

theorem full_endTrain (h : Full shut s) {n : Out} (hqueued : (s.ch n).state ≠ .queued)
    (hhold : (s.ch n).state ≠ .hold) : Full shut (endTrain s n) := by
  have hdrop : Full shut (s.updCh n (·.withTrain none)) :=
    full_updCh h rfl rfl ⟨(h.output n).owed, (h.output n).undriven, (h.output n).driven,
      fun hf => ⟨((h.output n).faulty hf).1, rfl⟩, fun hcs hshut =>
        ⟨((h.output n).closed hcs hshut).1, ((h.output n).closed hcs hshut).2.1, rfl⟩⟩
  have hstate : ((s.updCh n (·.withTrain none)).ch n).state = (s.ch n).state := by rw [updCh_ch_self]; rfl
  have hoff : Full shut (toOff (s.updCh n (·.withTrain none)) n) :=
    full_off hdrop (by rwa [hstate]) (by rwa [hstate])
  unfold endTrain
  split
  · exact h
  split
  · exact (alike_hand _ _).full hoff
  · exact hoff

/-- A channel in COOL whose class is open, with its train or owed pulses changed. -/
theorem full_cool_change (h : Full shut s) {n : Out} (hstate : (s.ch n).state = .cool) (hopen : ¬ shut n)
    {f : Channel → Channel} (hf : (f (s.ch n)).state = (s.ch n).state)
    (hdraw : (f (s.ch n)).holdDraw = (s.ch n).holdDraw) (howed : (f (s.ch n)).repeats ≤ (s.prof n).depth) :
    Full shut (s.updCh n f) :=
  full_updCh h hf hdraw (channelOk_of_open ((h.output n).of_cool hstate) hopen howed (by simp [hf, hstate])
    (by simp [hf, hstate]))

theorem full_coolOver (h : Full shut s) {n : Out} (hstate : (s.ch n).state = .cool) : Full shut (coolOver s n) := by
  have hcs := (h.output n).of_cool hstate
  unfold coolOver
  split
  next howed =>
    have hopen : ¬ shut n := fun hshut => by
      have := ((h.output n).closed hcs hshut).2.1
      omega
    have howing := full_cool_change h hstate hopen (f := (·.owing ((s.ch n).repeats - 1))) rfl rfl
      (Nat.le_trans (Nat.sub_le _ _) (h.output n).owed)
    exact full_enqueue howing (by simp [Channel.owing, hstate]) (by simp [Channel.owing, hstate]) hcs hopen _ _
  next =>
    have hwant : Full shut (s.updCh n (·.want false)) := full_updCh h rfl rfl ((h.output n).congr rfl rfl rfl)
    exact full_off hwant (by simp [Channel.want, hstate]) (by simp [Channel.want, hstate])

theorem full_burstCoolOver (h : Full shut s) {n : Out} (hstate : (s.ch n).state = .cool) {tr : Train}
    (htrain : (s.ch n).train = some tr) : Full shut (burstCoolOver s n tr) := by
  have hcs := (h.output n).of_cool hstate
  have hopen : ¬ shut n := fun hshut => by
    have := ((h.output n).closed hcs hshut).2.2
    rw [htrain] at this
    cases this
  unfold burstCoolOver
  split
  · exact full_endTrain h (by simp [hstate]) (by simp [hstate])
  · have hended := full_cool_change h hstate hopen (f := (·.withTrain (some { tr with burst := none }))) rfl rfl
      (h.output n).owed
    exact full_enqueue hended (by simp [Channel.withTrain, hstate]) (by simp [Channel.withTrain, hstate]) hcs hopen _ _

theorem full_coolIfZero (h : Full shut s) (n : Out) : Full shut (coolIfZero s n) := by
  unfold coolIfZero
  split
  next hcool =>
    split
    next => exact full_coolOver h hcool.2
    next tr htrain => exact full_burstCoolOver h hcool.2 htrain
  next => exact h

/-- An output that works, of an open class, in a new state. -/
theorem channelOk_moved {p : Profile} {sh : Prop} {c c' : Channel} (h : ChannelOk p sh c) (hw : Works c.state)
    (howed : c'.repeats = c.repeats) (hflipper : c'.state ≠ .flipper) (hfault : c'.state ≠ .fault) :
    ChannelOk p sh c' := by
  obtain ⟨hcs, hopen⟩ := h.of_works hw
  exact channelOk_of_open hcs hopen (by rw [howed]; exact h.owed) hflipper hfault

theorem full_coolFrom (h : Full shut s) {n : Out} (hstate : (s.ch n).state = .power ∨ (s.ch n).state = .gap) :
    Full shut (coolFrom s n) := by
  have hworks : Works (s.ch n).state := by
    obtain hst | hst := hstate
    · exact .inr (.inl hst)
    · exact .inr (.inr (.inr hst))
  refine full_coolIfZero (full_updCh_move h ?_ ?_ (channelOk_moved (h.output n) hworks rfl ?_ ?_)) n
  · obtain hst | hst := hstate <;> simp [hst]
  all_goals simp [Channel.cooling]

theorem full_leaveHold (h : Core shut s) {n : Out} (hstate : (s.ch n).state = .hold) :
    Full shut (leaveHold s n) := by
  refine full_coolIfZero (full_updateStanding (core_updCh h ?_ ?_)) n
  · simp [Channel.cooling, hstate]
  · exact channelOk_moved (h.output n) (.inr (.inr (.inl hstate))) rfl nofun nofun

theorem full_enterHold (h : Core shut s) {n : Out} (hqueued : (s.ch n).state ≠ .queued)
    (hcs : (s.prof n).mode.isCS = true) (hopen : ¬ shut n) : Full shut (enterHold s n) := by
  refine full_updateStanding (core_updCh h ?_ ?_)
  · simp [Channel.holding, hqueued]
  · exact channelOk_of_open hcs hopen (h.output n).owed nofun nofun

/-- An output enters FAULT from any state (R23). -/
theorem full_toFault (h : Core shut s) (n : Out) (kind : FaultKind) : Full shut (toFault s n kind) := by
  have hcore : Core shut (dequeue (s.updCh n (·.faulted kind)) n) := core_dequeue h nofun (channelOk_faulted kind)
  refine full_updateStanding ?_
  obtain ⟨⟨⟨hsingle, hqueued, hclasses, hsorted⟩, houtputs, hrecords, hown⟩, hflight⟩ := hcore
  exact ⟨⟨⟨hsingle, hqueued, hclasses, hsorted⟩, houtputs, hrecords, hown⟩, hflight⟩

/-! ### Requests on an output of an open class (R4) -/

section Requests

variable {n : Out} (h : Full shut s) (hcs : (s.prof n).mode.isCS = true) (hopen : ¬ shut n)
include h hcs hopen

/-- An open output that is not in FAULT, with its state and hold draw left. -/
theorem full_open_change {f : Channel → Channel} (hfault : (s.ch n).state ≠ .fault)
    (hstate : (f (s.ch n)).state = (s.ch n).state) (hdraw : (f (s.ch n)).holdDraw = (s.ch n).holdDraw)
    (howed : (f (s.ch n)).repeats ≤ (s.prof n).depth) : Full shut (s.updCh n f) :=
  full_updCh h hstate hdraw (channelOk_of_open hcs hopen howed (by rw [hstate]; exact (h.output n).driven hcs)
    (by rwa [hstate]))

theorem full_fireRequest (override : Option Nat) : Full shut (fireRequest s n override) := by
  unfold fireRequest
  dsimp only
  split
  next hst => exact full_enqueue h (by simp [hst]) (by simp [hst]) hcs hopen _ _
  next => exact full_busyDropped h
  next => exact h
  next hoff hfault hflipper =>
    split
    · exact full_busyDropped h
    split
    next hdepth => exact full_open_change h hcs hopen hfault rfl rfl hdepth
    next => exact full_busyDropped (full_updCh h rfl rfl ((h.output n).congr rfl rfl rfl))

theorem full_holdAfterPower (hqueued : (s.ch n).state ≠ .queued) : Full shut (holdAfterPower s n) := by
  have hwant : Full shut (s.updCh n (·.want true)) := full_updCh h rfl rfl ((h.output n).congr rfl rfl rfl)
  exact full_enterHold hwant.core (by simpa [Channel.want] using hqueued) hcs hopen

theorem full_holdRequest : Full shut (holdRequest s n) := by
  have hwant : Full shut (s.updCh n (·.want true)) := full_updCh h rfl rfl ((h.output n).congr rfl rfl rfl)
  unfold holdRequest
  dsimp only
  split
  next hst =>
    split
    · exact full_holdAfterPower h hcs hopen (by simp [hst])
    · exact full_enqueue hwant (by simp [Channel.want, hst]) (by simp [Channel.want, hst]) hcs hopen _ _
  next => exact full_busyDropped h
  next => exact h
  next => exact full_updCh h rfl rfl ((h.output n).congr rfl rfl rfl)
  next hst =>
    split
    · exact full_busyDropped h
    split
    · exact full_holdAfterPower h hcs hopen (by simp [hst])
    · exact hwant
  next =>
    split
    · exact full_busyDropped h
    · exact hwant

omit hcs hopen in
theorem full_releaseRequest : Full shut (releaseRequest s n) := by
  have hwant : Full shut (s.updCh n (·.want false)) := full_updCh h rfl rfl ((h.output n).congr rfl rfl rfl)
  unfold releaseRequest
  split
  next => exact h
  next => exact full_busyDropped h
  next => exact h
  next hst => exact full_leaveHold hwant.core (by simpa [Channel.want] using hst)
  next => exact hwant

theorem full_trainRequest (req : TrainReq) : Full shut (trainRequest s n req) := by
  unfold trainRequest
  dsimp only
  split
  next hst =>
    have hstart := full_open_change h hcs hopen (f := (·.withTrain (some (Train.start req (s.prof n).burst))))
      (by simp [hst]) rfl rfl (h.output n).owed
    exact full_enqueue hstart (by simp [Channel.withTrain, hst]) (by simp [Channel.withTrain, hst]) hcs hopen _ _
  next => exact full_busyDropped h
  next => exact h
  next hoff hfault hflipper =>
    split
    next tr _ =>
      unfold trainAddition
      split
      · exact full_busyDropped h
      extract_lets t
      have ht : Full shut t := full_open_change h hcs hopen hfault rfl rfl (h.output n).owed
      split
      · exact full_busyDropped ht
      · exact ht
    next => exact full_busyDropped h

/-- An entry that leaves QUEUED for OFF with its train changed, and the selection that follows. -/
theorem full_queued_off (hst : (s.ch n).state = .queued) (f : Channel → Channel)
    (howed : (f (s.ch n)).repeats = (s.ch n).repeats) :
    Full shut (dequeue (s.updCh n fun c => (f c).off) n) :=
  full_dequeue h (by simp [hst]) ⟨nofun, nofun⟩
    (channelOk_of_open hcs hopen (howed ▸ (h.output n).owed) nofun nofun)

theorem full_gracefulStop {tr : Train} (htrain : (s.ch n).train = some tr) : Full shut (gracefulStop s n tr) := by
  have hfault : (s.ch n).state ≠ .fault := fun hst => by
    have := ((h.output n).faulty hst).2
    rw [htrain] at this
    cases this
  unfold gracefulStop
  extract_lets t
  have ht : Full shut t := full_open_change h hcs hopen hfault rfl rfl (h.output n).owed
  have hchan : t.ch n = (s.ch n).withTrain (some { tr with stopRequested := true }) := updCh_ch_self _ _ _
  split
  next hst =>
    refine full_select ?_
    have hended : Full shut (toOff ((dequeue t n).updCh n (·.withTrain none)) n) := by
      rw [toOff, updCh_updCh, updCh_dequeue, updCh_updCh]
      exact full_queued_off h hcs hopen hst
        (fun c => (c.withTrain (some { tr with stopRequested := true })).withTrain none) rfl
    have htrain' : ((dequeue t n).ch n).train = some { tr with stopRequested := true } := by
      rw [dequeue_ch, hchan]
      rfl
    unfold endTrain
    rw [htrain']
    dsimp only
    split
    · exact (alike_hand _ _).full hended
    · exact hended
  next hst =>
    exact full_coolFrom ht (.inr (by rw [hchan]; exact hst))
  next => exact ht

theorem full_cancelTrain (hfault : (s.ch n).state ≠ .fault) : Full shut (cancelTrain s n) := by
  unfold cancelTrain
  extract_lets t
  have ht : Full shut t := full_open_change h hcs hopen hfault rfl rfl (h.output n).owed
  have hstate : (t.ch n).state = (s.ch n).state := by
    rw [show t.ch n = (s.ch n).withTrain none from updCh_ch_self _ _ _]
    rfl
  split
  next hst =>
    refine full_select ?_
    rw [toOff, updCh_dequeue, updCh_updCh]
    exact full_queued_off h hcs hopen hst (·.withTrain none) rfl
  next hst => exact full_coolFrom ht (.inl (hstate.trans hst))
  next hst => exact full_coolFrom ht (.inr (hstate.trans hst))
  next => exact ht

theorem full_trainStopRequest (cancel : Bool) : Full shut (trainStopRequest s n cancel) := by
  unfold trainStopRequest
  dsimp only
  split
  next => exact full_busyDropped h
  next hfault =>
    split
    next tr htrain =>
      split
      · exact full_cancelTrain h hcs hopen hfault
      · exact full_gracefulStop h hcs hopen htrain
    next => exact h

theorem full_takeRequest (r : Request) : Full shut (takeRequest s n r) := by
  cases r with
  | fire override => exact full_fireRequest h hcs hopen override
  | hold => exact full_holdRequest h hcs hopen
  | release => exact full_releaseRequest h
  | train req => exact full_trainRequest h hcs hopen req
  | trainStop cancel => exact full_trainStopRequest h hcs hopen cancel

end Requests

/-! ### The outputs of a class that becomes closed (R173) -/

/-- Output n, besides those that are closed already. -/
def ShutToo (shut : Out → Prop) (n : Out) : Out → Prop := fun m => shut m ∨ m = n

/-- A channel that owes nothing, has no train and is OFF, in COOL or in FAULT is closed. -/
theorem channelOk_shut {p : Profile} {sh sh' : Prop} {c : Channel} (h : ChannelOk p sh c)
    (hstate : p.mode.isCS = true → c.state = .off ∨ c.state = .cool ∨ c.state = .fault) (howed : c.repeats = 0)
    (htrain : c.train = none) : ChannelOk p sh' c :=
  ⟨h.owed, h.undriven, h.driven, h.faulty, fun hcs _ => ⟨hstate hcs, howed, htrain⟩⟩

theorem core_shutToo (h : Core shut s) {n : Out} (hn : ChannelOk (s.prof n) True (s.ch n)) :
    Core (ShutToo shut n) s := by
  obtain ⟨⟨hlined, houtputs, hrecords, hown⟩, hflight⟩ := h
  refine ⟨⟨hlined, fun m => ?_, hrecords, hown⟩, hflight⟩
  by_cases hm : m = n
  · subst hm
    exact hn.mono fun _ => trivial
  · exact (houtputs m).mono fun hshut => hshut.resolve_right hm

theorem core_gateOutput (h : Core shut s) {n : Out} (hcs : (s.prof n).mode.isCS = true) :
    Core (ShutToo shut n) (gateOutput s n) := by
  have hok := h.output n
  have hdrop := channelOk_dropWork hok
  -- A channel that left POWER, HOLD or GAP for a state that a closed class may be in.
  have hmoved {f : Channel → Channel} (hbefore : (s.ch n).state ≠ .queued) (hafter : (f (s.ch n)).state ≠ .queued)
      (hf : ∀ sh, ChannelOk (s.prof n) sh (f (s.ch n))) : Core (ShutToo shut n) (s.updCh n f) :=
    core_shutToo (core_updCh h (by simp [hbefore, hafter]) (hf _)) (by rw [updCh_ch_self]; exact hf _)
  have hcut (hbefore : (s.ch n).state ≠ .queued) : Core (ShutToo shut n)
      (if (s.prof n).cool = 0 then toOff (s.updCh n Channel.dropWork) n
        else toCool (s.updCh n Channel.dropWork) n) := by
    split
    · rw [toOff, updCh_updCh]
      exact hmoved hbefore nofun fun sh =>
        channelOk_shut (channelOk_off hdrop) (fun _ => .inl rfl) rfl rfl
    · rw [toCool, updCh_updCh]
      exact hmoved hbefore nofun fun sh => channelOk_cooled hcs rfl rfl rfl
  unfold gateOutput
  dsimp only
  split
  next hst => exact hcut (by simp [hst])
  next hst => exact hcut (by simp [hst])
  next hst => exact hcut (by simp [hst])
  next hst =>
    rw [toOff, updCh_dequeue, updCh_updCh]
    have hoff : ∀ sh, ChannelOk (s.prof n) sh (s.ch n).dropWork.off := fun sh =>
      channelOk_shut (channelOk_off hdrop) (fun _ => .inl rfl) rfl rfl
    refine core_shutToo (core_dequeue h (by simp [Channel.off]) (hoff _)) ?_
    rw [dequeue_ch, updCh_ch_self, State.prof, dequeue_cfg]
    exact hoff True
  next hpower hhold hgap hqueued =>
    refine hmoved hqueued hqueued fun sh => channelOk_shut hdrop (fun _ => ?_) rfl rfl
    have hflipper := hok.driven hcs
    show (s.ch n).state = .off ∨ (s.ch n).state = .cool ∨ (s.ch n).state = .fault
    cases hst : (s.ch n).state <;> simp_all

end Sys2Proof.Proofs
end

section
/-! What is said of outputs, queue, claim, flippers, own record and settings (O4): in RUN and outside it, through
changes of the play state, the table stop, flippers, actions, commands and edges. -/

namespace Sys2Proof.Proofs
open Sys2Proof.Machine

/-! ### The statements at any station state -/

/-- The outputs of the classes that are closed now. -/
def shutIn (s : State) (n : Out) : Prop := Closed s (s.prof n).cls

theorem Alike.closed {s t : State} (h : Alike s t) (cls : Nat) : Closed t cls ↔ Closed s cls := by
  unfold Closed
  rw [h.play, h.stopped]

theorem Alike.viewing {s t : State} (h : Alike s t) : t.viewing = s.viewing := by
  unfold State.viewing
  rw [h.station]

theorem Alike.coils {s t : State} (h : Alike s t) (hs : CoilsSound s) : CoilsSound t := by
  obtain ⟨hqueue, hflight, houtputs, hflippers, ⟨hrecords, hown⟩, hstanding, hrest, hsettings⟩ := hs
  refine ⟨?_, h.flight hflight, fun n => ?_, ?_, ⟨fun i hi => ?_, ?_⟩, h.standingSound hstanding, ?_, ?_⟩
  · rw [queueSound_iff] at *
    exact h.lined hqueue
  · have hok := h.channel ((outputSound_iff s n).mp (houtputs n))
    refine (outputSound_iff t n).mpr (hok.mono fun hclosed => ?_)
    rw [h.closed, h.prof] at hclosed
    exact hclosed
  · intro hstop f
    rw [h.play, h.stopped] at hstop
    rw [h.flippers]
    exact hflippers hstop f
  · rw [(h.standing i).1]
    refine hrecords i (hi.imp h.absent fun hview => ?_)
    rwa [← h.viewing]
  · rw [h.station]
    exact fun hst => h.ownPresent (hown hst)
  · intro hrun
    rw [h.station] at hrun
    obtain ⟨hempty, hclaim, hidle, hgo, hchan⟩ := hrest hrun
    refine ⟨by rw [h.queue, hempty], by rw [h.claim, hclaim], by rw [h.play, hidle], by rw [h.stopped, hgo],
      fun n => ?_⟩
    obtain ⟨hstate, howed, htrain, -⟩ := h.chan n
    rw [hstate, howed, htrain]
    exact hchan n
  · intro hview
    rw [h.viewing] at hview
    rw [h.cfg]
    exact hsettings hview

theorem coils_of_eq {s t : State} (hs : CoilsSound s) (hcfg : t.cfg = s.cfg) (hsl : t.sl.station = s.sl.station)
    (hnumber : t.sl.number = s.sl.number) (hchan : t.cs.chan = s.cs.chan) (hqueue : t.cs.queue = s.cs.queue)
    (hclaim : t.db.claim = s.db.claim) (hstanding : t.db.standing = s.db.standing) (hfl : t.fl = s.fl)
    (hpc : t.pc = s.pc) : CoilsSound t :=
  (alike_of_eq hcfg hsl hnumber hchan hqueue hclaim hstanding hfl hpc).coils hs

/-- In RUN the statements are those of queue, claim, outputs and records, and the flippers'. -/
theorem full_of_coilsSound {s : State} (hrun : s.sl.station = .run) (h : CoilsSound s) :
    Full (shutIn s) s ∧ FlippersSound s := by
  obtain ⟨hqueue, hflight, houtputs, hflippers, ⟨hrecords, hown⟩, hstanding, -, -⟩ := h
  exact ⟨⟨⟨⟨(queueSound_iff s).mp hqueue, fun n => (outputSound_iff s n).mp (houtputs n),
    fun i hi => hrecords i (.inl hi), hown (.inr (.inr hrun))⟩, hflight⟩, hstanding⟩, hflippers⟩

theorem viewing_of_run {s : State} (hrun : s.sl.station = .run) : s.viewing = true := by
  simp [State.viewing, hrun]

theorem coilsSound_of_full {s : State} (hrun : s.sl.station = .run) (h : Full (shutIn s) s)
    (hflippers : FlippersSound s) : CoilsSound s := by
  obtain ⟨⟨⟨hlined, houtputs, hrecords, hown⟩, hflight⟩, hstanding⟩ := h
  have hview := viewing_of_run hrun
  refine ⟨(queueSound_iff s).mpr hlined, hflight, fun n => (outputSound_iff s n).mpr (houtputs n), hflippers,
    ⟨fun i hi => hrecords i (hi.resolve_right (by simp [hview])), fun _ => hown⟩, hstanding,
    fun hnot => absurd hrun hnot, fun hnot => ?_⟩
  rw [hview] at hnot
  cases hnot

/-- Work of the coil sequencer in RUN. -/
theorem coils_work {s t : State} (hrun : s.sl.station = .run) (hwork : CoilWork s t)
    (hfull : Full (shutIn s) s → Full (shutIn s) t) (h : CoilsSound s) : CoilsSound t := by
  obtain ⟨hs, hflippers⟩ := full_of_coilsSound hrun h
  have hsl : t.sl = s.sl := by rw [hwork]
  have hshut : shutIn t = shutIn s := by
    funext n
    unfold shutIn Closed
    rw [hwork.prof]
    rw [hwork]
  refine coilsSound_of_full (by rw [hsl, hrun]) (hshut ▸ hfull hs) ?_
  unfold FlippersSound
  rw [hwork]
  exact hflippers

/-- Outside RUN the queue is empty, no claim is in flight, and no output is under way. -/
theorem rest_of_not_run {s : State} (h : CoilsSound s) (hrun : s.sl.station ≠ .run) :
    s.cs.queue = [] ∧ s.db.claim = none ∧ s.pc.state = .idle ∧ s.pc.stopped = false ∧
      ∀ n, ((s.ch n).state = .off ∨ (s.ch n).state = .flipper) ∧ (s.ch n).repeats = 0 ∧ (s.ch n).train = none := by
  obtain ⟨-, -, -, -, -, -, hrest, -⟩ := h
  exact hrest hrun

/-- An output that is neither OFF nor FLIPPER is one of a station in RUN. -/
theorem run_of_state {s : State} (h : CoilsSound s) {n : Out} (hoff : (s.ch n).state ≠ .off)
    (hflipper : (s.ch n).state ≠ .flipper) : s.sl.station = .run := by
  refine Classical.byContradiction fun hrun => ?_
  obtain ⟨-, -, -, -, hchan⟩ := rest_of_not_run h hrun
  exact (hchan n).1.elim hoff hflipper

theorem run_of_entry {s : State} (h : CoilsSound s) {e : Entry} (he : e ∈ s.cs.queue) : s.sl.station = .run := by
  refine Classical.byContradiction fun hrun => ?_
  rw [(rest_of_not_run h hrun).1] at he
  cases he

theorem run_of_claim {s : State} (h : CoilsSound s) {c : Claim} (hc : s.db.claim = some c) :
    s.sl.station = .run := by
  refine Classical.byContradiction fun hrun => ?_
  rw [(rest_of_not_run h hrun).2.1] at hc
  cases hc

/-- An output with a train is one of a station in RUN. -/
theorem run_of_train {s : State} (h : CoilsSound s) {n : Out} {tr : Train} (ht : (s.ch n).train = some tr) :
    s.sl.station = .run := by
  refine Classical.byContradiction fun hrun => ?_
  obtain ⟨-, -, -, -, hchan⟩ := rest_of_not_run h hrun
  rw [(hchan n).2.2] at ht
  cases ht

/-! ### Selection and claims at any station state -/

theorem coils_select {s : State} (h : CoilsSound s) : CoilsSound (select s) := by
  by_cases hrun : s.sl.station = .run
  · exact coils_work hrun (coilWork_select s) full_select h
  · rw [select_of_empty (rest_of_not_run h hrun).1]
    exact h

theorem coils_viewDecrease {s : State} (h : CoilsSound s) : CoilsSound (viewDecrease s) := by
  refine coils_select ?_
  by_cases hrun : s.sl.station = .run
  · exact coils_work hrun (coilWork_unpark s) (fun hs => full_entries hs _ (fun _ => ⟨rfl, rfl⟩) fun _ => rfl) h
  · have hempty := (rest_of_not_run h hrun).1
    exact coils_of_eq h rfl rfl rfl rfl (by simp [State.unpark, hempty]) rfl rfl rfl rfl

theorem coils_announce {s : State} (h : CoilsSound s) : CoilsSound (announceStanding s) := (alike_announce s).coils h

theorem coils_decideClaim {s : State} (h : CoilsSound s) (at_ : Tick) : CoilsSound (decideClaim s at_) := by
  by_cases hrun : s.sl.station = .run
  · exact coils_work hrun (coilWork_decideClaim s at_) (fun hs => full_decideClaim hs at_) h
  · unfold decideClaim
    rw [(rest_of_not_run h hrun).2.1]
    exact h

theorem coilWork_clearClaim (s : State) : CoilWork s (clearClaim s) := by
  rw [clearClaim_eq]
  rfl

theorem coils_clearClaim {s : State} (h : CoilsSound s) : CoilsSound (clearClaim s) := by
  by_cases hrun : s.sl.station = .run
  · exact coils_work hrun (coilWork_clearClaim s) full_clearClaim h
  · unfold clearClaim
    rw [(rest_of_not_run h hrun).2.1]
    exact h

/-! ### Requests (R4) -/

theorem not_shut_of_open {s : State} {n : Out} (h : s.open_ (s.prof n).cls = true) : ¬ shutIn s n := by
  unfold State.open_ at h
  rw [Bool.and_eq_true, Bool.not_eq_true', Bool.not_eq_true'] at h
  obtain ⟨hgo, hclass⟩ := h
  rintro (hstop | ⟨hstate, hcls⟩ | ⟨hstate, hcls⟩)
  · simp [hgo] at hstop
  · simp [classDisabled, hstate, hcls] at hclass
  · simp [classDisabled, hstate, hcls] at hclass

theorem coils_coilRequest {s : State} (h : CoilsSound s) (n : Out) (r : Request) :
    CoilsSound (coilRequest s n r) := by
  unfold coilRequest
  split
  next hrun =>
    split
    next hopen =>
      exact coils_work hrun.1 (coilWork_takeRequest s n r)
        (fun hs => full_takeRequest hs hrun.2 (not_shut_of_open hopen) r) h
    next => exact Alike.coils ⟨rfl, rfl, rfl, fun _ => ⟨rfl, rfl, rfl, rfl⟩, rfl, rfl, fun _ => ⟨rfl, id⟩,
        fun _ => rfl, rfl, rfl⟩ h
  next => exact h

/-! ### A change of the play state (R83, R171, R173) -/

theorem Core.mono {shut shut' : Out → Prop} {s : State} (h : Core shut s)
    (hle : ∀ n, (s.prof n).mode.isCS = true → shut' n → shut n) : Core shut' s := by
  obtain ⟨⟨hlined, houtputs, hrecords, hown⟩, hflight⟩ := h
  refine ⟨⟨hlined, fun n => ?_, hrecords, hown⟩, hflight⟩
  obtain ⟨howed, hundriven, hdriven, hfaulty, hclosed⟩ := houtputs n
  exact ⟨howed, hundriven, hdriven, hfaulty, fun hcs hshut => hclosed hcs (hle n hcs hshut)⟩

theorem Full.mono {shut shut' : Out → Prop} {s : State} (h : Full shut s)
    (hle : ∀ n, (s.prof n).mode.isCS = true → shut' n → shut n) : Full shut' s := ⟨h.core.mono hle, h.standing⟩

/-- Neither play control, nor flippers, nor lamps are spoken of by queue, claim, outputs and records. -/
theorem full_others {shut : Out → Prop} {s : State} (h : Full shut s) (pc : Play) (fl : Bank Flipper 4) (lp : Lamps) :
    Full shut { s with pc := pc, fl := fl, lp := lp } := by
  obtain ⟨⟨⟨⟨hsingle, hqueued, hclasses, hsorted⟩, houtputs, hrecords, hown⟩, hflight⟩, hstanding⟩ := h
  exact ⟨⟨⟨⟨hsingle, hqueued, hclasses, hsorted⟩, houtputs, hrecords, hown⟩, hflight⟩, hstanding⟩

/-- The outputs gated one after the other. -/
theorem core_gateAll {cfg : Settings} (old new : PlayState) (l : List Out) :
    ∀ {s : State} {shut : Out → Prop}, s.cfg = cfg → Core shut s →
      Core (fun n => shut n ∨ n ∈ l ∧ newlyGated cfg old new n = true)
        (l.foldl (fun s n => if newlyGated s.cfg old new n then gateOutput s n else s) s) := by
  induction l with
  | nil => exact fun _ h => h.mono fun n _ hn => hn.resolve_right (by simp)
  | cons m rest ih =>
    intro s shut hcfg h
    rw [List.foldl_cons]
    split
    next hgated =>
      have hcs : (s.prof m).mode.isCS = true := by
        simp only [newlyGated, Bool.and_eq_true] at hgated
        exact hgated.1.1
      have hcfg' : (gateOutput s m).cfg = cfg := by rw [coilWork_gateOutput s m, hcfg]
      refine (ih hcfg' (core_gateOutput h hcs)).mono fun n _ hn => ?_
      obtain hn | ⟨hn, hg⟩ := hn
      · exact .inl (.inl hn)
      · obtain rfl | hn := List.mem_cons.mp hn
        · exact .inl (.inr rfl)
        · exact .inr ⟨hn, hg⟩
    next hgated =>
      refine (ih hcfg h).mono fun n _ hn => ?_
      obtain hn | ⟨hn, hg⟩ := hn
      · exact .inl hn
      · obtain rfl | hn := List.mem_cons.mp hn
        · exact absurd (hcfg ▸ hg) hgated
        · exact .inr ⟨hn, hg⟩

theorem full_gateOutputs {shut : Out → Prop} {s : State} (h : Core shut s) (old new : PlayState) :
    Full (fun n => shut n ∨ newlyGated s.cfg old new n = true) (gateOutputs s old new) := by
  refine full_updateStanding ((core_gateAll old new (List.finRange 16) rfl h).mono fun n _ hn => ?_)
  exact hn.imp id fun hg => ⟨List.mem_finRange n, hg⟩

theorem rest_state (r : Flipper) : r.rest.state = .rest := by
  unfold Flipper.rest
  split
  next h => exact h
  next => rfl

/-- A class that the new play state closes was closed before, or its CS outputs are newly gated. -/
theorem closed_after {s : State} (new : PlayState) (stopped : Bool) (hstop : stopped = true → s.pc.stopped = true)
    {n : Out} (hcs : (s.prof n).mode.isCS = true)
    (h : shutIn { s with pc := { s.pc with state := new, stopped := stopped } } n) :
    shutIn s n ∨ newlyGated s.cfg s.pc.state new n = true := by
  have hdisabled (p : PlayState) (hp : p = .tilt ∧ (s.prof n).cls ≤ 1 ∨ p = .slam ∧ (s.prof n).cls ≤ 2) :
      classDisabled p (s.prof n).cls = true := by
    obtain ⟨rfl, hcls⟩ | ⟨rfl, hcls⟩ := hp <;> simpa [classDisabled] using hcls
  obtain hs | hp := h
  · exact .inl (.inl (hstop hs))
  · by_cases hold : classDisabled s.pc.state (s.prof n).cls = true
    · left
      right
      cases hstate : s.pc.state <;> simp [classDisabled, hstate] at hold ⊢
      · exact hold
      · exact hold
    · right
      have hnew := hdisabled new hp
      unfold newlyGated
      simp only [State.prof] at hcs hnew hold
      simp [hcs, hnew, hold]

theorem stopped_next (k : PlayFrame) (b : Bool) : k.stopped b = true → b = true := by
  cases k <;> simp [PlayFrame.stopped]

/-- The play state is entered with the station not stopped. -/
theorem stopped_of_play (k : PlayFrame) {p : PlayState} (b : Bool) (h : k.next p = .play) (hne : p ≠ .play) :
    k.stopped b = false := by
  cases k with
  | start => rfl
  | _ => cases p <;> simp_all [PlayFrame.next]

/-- The play state and stopped flag set, before what follows from them. -/
def playSet (s : State) (k : PlayFrame) : State :=
  { s with pc := { s.pc with state := k.next s.pc.state, stopped := k.stopped s.pc.stopped } }

theorem playChange_of_run {s : State} (hrun : s.sl.station = .run) (k : PlayFrame) :
    playChange s k =
      if k.next s.pc.state = s.pc.state then
        if k.stopped s.pc.stopped = s.pc.stopped then playSet s k else select (playSet s k)
      else select (playEffects (playSet s k) s.pc.state (k.next s.pc.state)) := if_pos hrun

/-- After the outputs are gated, flippers and lamps alone are changed; outside PLAY every flipper then rests. -/
theorem playEffects_eq (t : State) (old new : PlayState) :
    ∃ fl lp, playEffects t old new = { gateOutputs t old new with fl := fl, lp := lp } ∧
      (new ≠ .play → ∀ f, (fl.get f).state = .rest) := by
  unfold playEffects
  generalize gateOutputs t old new = u
  dsimp only
  by_cases hplay : new = .play
  · refine ⟨u.fl, if new.dark then (darkenTiltGroup u).lp else u.lp, ?_, fun h => absurd hplay h⟩
    rw [if_pos hplay]
    split <;> rfl
  · refine ⟨u.fl.mapIdx fun _ r => r.rest, if new.dark then (darkenTiltGroup u).lp else u.lp, ?_, fun _ f => ?_⟩
    · rw [if_neg hplay]
      split <;> rfl
    · rw [Bank.get_mapIdx]
      exact rest_state _

/-- With the play state as it was, nothing new is closed, and no more flippers must rest. -/
theorem coils_playSet {s : State} (h : CoilsSound s) (hrun : s.sl.station = .run) (k : PlayFrame)
    (hsame : k.next s.pc.state = s.pc.state) : CoilsSound (playSet s k) := by
  obtain ⟨hfull, hflippers⟩ := full_of_coilsSound hrun h
  have ht : Full (shutIn s) (playSet s k) := full_others hfull _ s.fl s.lp
  refine coilsSound_of_full hrun (ht.mono fun n _ hn => ?_) fun hstop => hflippers ?_
  · unfold shutIn Closed playSet at hn
    dsimp only at hn
    rw [hsame] at hn
    exact hn.imp (stopped_next k _) id
  · unfold playSet at hstop
    dsimp only at hstop
    rw [hsame] at hstop
    exact hstop.imp id (stopped_next k _)

/-- A new play state, with the outputs it closes gated and the flippers it rests at rest. -/
theorem coils_playEffects {s : State} (h : CoilsSound s) (hrun : s.sl.station = .run) (k : PlayFrame)
    (hne : k.next s.pc.state ≠ s.pc.state) :
    CoilsSound (playEffects (playSet s k) s.pc.state (k.next s.pc.state)) := by
  obtain ⟨hfull, -⟩ := full_of_coilsSound hrun h
  have hset : Full (shutIn s) (playSet s k) := full_others hfull _ s.fl s.lp
  have hgated := full_gateOutputs hset.core s.pc.state (k.next s.pc.state)
  have hwork := coilWork_gateOutputs (playSet s k) s.pc.state (k.next s.pc.state)
  obtain ⟨fl, lp, heq, hrest⟩ := playEffects_eq (playSet s k) s.pc.state (k.next s.pc.state)
  rw [heq]
  generalize gateOutputs (playSet s k) s.pc.state (k.next s.pc.state) = u at hgated hwork
  have hpc : u.pc = (playSet s k).pc := by rw [hwork]
  refine coilsSound_of_full (by rw [hwork]; exact hrun) ((full_others hgated u.pc fl lp).mono fun n hcs hshut => ?_)
    fun hstop => ?_
  · have hprof : State.prof { u with fl := fl, lp := lp } n = s.prof n := hwork.prof n
    rw [hprof] at hcs
    refine closed_after (k.next s.pc.state) (k.stopped s.pc.stopped) (stopped_next k _) hcs ?_
    unfold shutIn at hshut
    rw [hprof] at hshut
    unfold Closed at hshut
    dsimp only at hshut
    rw [hpc] at hshut
    exact hshut
  · refine hrest fun hplay => ?_
    dsimp only at hstop
    rw [hpc] at hstop
    obtain hs | hs := hstop
    · exact hs hplay
    · have hgo := stopped_of_play k s.pc.stopped hplay (by rw [← hplay]; exact hne.symm)
      exact absurd (hgo.symm.trans hs) (by decide)

theorem coils_playChange {s : State} (h : CoilsSound s) (k : PlayFrame) : CoilsSound (playChange s k) := by
  by_cases hrun : s.sl.station = .run
  · rw [playChange_of_run hrun]
    split
    next hsame =>
      have hset := coils_playSet h hrun k hsame
      split
      · exact hset
      · exact coils_select hset
    next hne => exact coils_select (coils_playEffects h hrun k hne)
  · rw [playChange, if_neg hrun]
    exact h

theorem coils_playFrameTaken {s : State} (h : CoilsSound s) (kind : BitVec 5) (payload : List Byte) :
    CoilsSound (playFrameTaken s kind payload) := by
  unfold playFrameTaken
  split
  · exact coils_playChange h _
  · exact h

theorem coils_raisePlay {s : State} (h : CoilsSound s) (k : PlayFrame) : CoilsSound (raisePlay s k) := by
  have hhand := (alike_hand s (playFrame s.own k)).coils h
  unfold raisePlay
  dsimp only
  split
  · exact coils_playChange hhand k
  · exact hhand

end Sys2Proof.Proofs
end

section
/-! What is said of outputs, queue, claim, flippers, own record and settings (O4): the table stop, flippers, actions,
commands and edges. -/

namespace Sys2Proof.Proofs
open Sys2Proof.Machine

/-! ### The table stop (R69, R175) -/

/-- A flipper that is not driven by CS, a fault, or an output stopped. -/
theorem channelOk_stop {p : Profile} {sh sh' : Prop} {c : Channel} (h : ChannelOk p sh c) :
    ChannelOk p sh' (if p.mode.isCS = true then c.stop else c) ∧
      (if p.mode.isCS = true then c.stop else c).state ≠ .queued ∧
      ((if p.mode.isCS = true then c.stop else c).state = .hold → p.mode.isCS = false) := by
  by_cases hcs : p.mode.isCS = true
  · rw [if_pos hcs]
    by_cases hfault : c.state = .fault
    · have hstop : c.stop = c := if_pos hfault
      obtain ⟨howed, htrain⟩ := h.faulty hfault
      rw [hstop]
      exact ⟨channelOk_shut h (fun _ => .inr (.inr hfault)) howed htrain, by simp [hfault], by simp [hfault]⟩
    · have hstop : c.stop = { c with
          state := .off, repeats := 0, holdWanted := false, train := none, holdDraw := 0, checkDue := none } :=
        if_neg hfault
      rw [hstop]
      exact ⟨⟨Nat.zero_le _, fun _ => .inl rfl, fun _ => nofun, nofun, fun _ _ => ⟨.inl rfl, rfl, rfl⟩⟩, nofun, nofun⟩
  · rw [if_neg hcs]
    have hstate := h.undriven (by simpa using hcs)
    refine ⟨⟨h.owed, h.undriven, h.driven, h.faulty, fun hnot => absurd hnot hcs⟩, ?_, fun _ => by simpa using hcs⟩
    obtain hst | hst | hst := hstate <;> simp [hst]

theorem withdrawInFlight_cs (s : State) : (withdrawInFlight s).cs = s.cs := by
  unfold withdrawInFlight
  split
  · exact withdrawClaim_cs s _
  · rfl

/-- No claim that is not withdrawn is left in flight. -/
theorem withdrawInFlight_claim (s : State) (c : Claim) (h : (withdrawInFlight s).db.claim = some c) :
    c.withdrawn = true := by
  unfold withdrawInFlight at h
  refine Classical.byContradiction fun hw => ?_
  split at h
  next c' hc' =>
    have := (withdrawClaim_claim s c'.output c (by simpa using hw)).mp h
    rw [hc'] at this
    obtain ⟨heq, hne⟩ := this
    exact hne (by rw [Option.some.inj heq])
  next hnone =>
    rw [hnone] at h
    cases h

theorem coilWork_withdrawInFlight (s : State) : CoilWork s (withdrawInFlight s) := by
  unfold withdrawInFlight
  split
  · exact coilWork_withdrawClaim s _
  · exact .refl s

theorem withdrawInFlight_standing (s : State) : (withdrawInFlight s).db.standing = s.db.standing := by
  unfold withdrawInFlight
  split
  · exact withdrawClaim_standing s _
  · rfl

/-- The station at a table stop in RUN, before the own record is announced. -/
def stoppedTable (s : State) : State :=
  clearView (restFlippers (withdrawInFlight (stopCoils { s with pc := { s.pc with stopped := true } })))

theorem tableStop_of_run {s : State} (hrun : s.sl.station = .run) :
    tableStop s = if 0 < s.ownDraw then announceStanding (stoppedTable s) else stoppedTable s := if_pos hrun

section StoppedTable

variable (s : State)

/-- The station with its coils stopped is, in all but coils and budget, the station stopped. -/
theorem stopped_work : CoilWork { s with pc := { s.pc with stopped := true } }
    (withdrawInFlight (stopCoils { s with pc := { s.pc with stopped := true } })) :=
  (coilWork_cs _ _).trans (coilWork_withdrawInFlight _)

theorem stoppedTable_queue : (stoppedTable s).cs.queue = [] := by
  show (withdrawInFlight _).cs.queue = []
  rw [withdrawInFlight_cs]
  rfl

theorem stoppedTable_cfg : (stoppedTable s).cfg = s.cfg := by
  show (withdrawInFlight _).cfg = _
  rw [stopped_work s]

theorem stoppedTable_sl : (stoppedTable s).sl = s.sl := by
  show (withdrawInFlight _).sl = _
  rw [stopped_work s]

theorem stoppedTable_prof (n : Out) : (stoppedTable s).prof n = s.prof n := by
  rw [State.prof, State.prof, stoppedTable_cfg]

theorem stoppedTable_ch (n : Out) :
    (stoppedTable s).ch n = if (s.prof n).mode.isCS = true then (s.ch n).stop else s.ch n := by
  show (withdrawInFlight _).cs.chan.get n = _
  rw [withdrawInFlight_cs]
  show (s.cs.chan.mapIdx _).get n = _
  rw [Bank.get_mapIdx]
  rfl

theorem stoppedTable_standing (i : Fin 63) :
    (stoppedTable s).db.standing.get i = { s.db.standing.get i with draw := 0 } := by
  show ((withdrawInFlight _).db.standing.mapIdx _).get i = _
  rw [Bank.get_mapIdx, withdrawInFlight_standing]
  rfl

theorem stoppedTable_flippers (f : Flip) : ((stoppedTable s).fl.get f).state = .rest := by
  show (((withdrawInFlight _).fl.mapIdx fun _ r => r.rest).get f).state = FlipState.rest
  rw [Bank.get_mapIdx]
  exact rest_state _

end StoppedTable

/-- The table stop in RUN leaves a sound station, whatever the queue and the claim were. -/
theorem coils_stoppedTable {s : State} (hrun : s.sl.station = .run)
    (houtputs : ∀ n, ChannelOk (s.prof n) False (s.ch n))
    (hown : ∃ i : Fin 63, s.own.toNat = i.val ∧ (s.db.standing.get i).present = true) :
    CoilsSound (stoppedTable s) := by
  have hch (n : Out) := channelOk_stop (sh' := shutIn (stoppedTable s) n) (houtputs n)
  have hempty := stoppedTable_queue s
  refine coilsSound_of_full (by rw [stoppedTable_sl, hrun])
    ⟨⟨⟨⟨?_, fun n => ?_, ?_, ?_⟩, fun n => ?_, fun i _ => ?_, ?_⟩, ?_, fun c hc hw => ?_⟩, fun i _ => ?_⟩
    (fun _ f => stoppedTable_flippers s f)
  · rw [hempty]
    exact List.nodup_nil
  · rw [hempty, stoppedTable_ch]
    simpa using (hch n).2.1
  · rw [hempty]
    exact fun e he => absurd he List.not_mem_nil
  · rw [hempty]
    exact List.Pairwise.nil
  · rw [stoppedTable_prof, stoppedTable_ch]
    exact (hch n).1
  · rw [stoppedTable_standing]
  · obtain ⟨i, hi, hpresent⟩ := hown
    refine ⟨i, ?_, ?_⟩
    · rw [State.own, stoppedTable_sl]
      exact hi
    · rw [stoppedTable_standing]
      exact hpresent
  · rw [hempty]
    exact fun e he => absurd he List.not_mem_nil
  · have := withdrawInFlight_claim _ c hc
    rw [hw] at this
    cases this
  · rw [stoppedTable_standing]
    have hzero (n : Out) : heldIn (stoppedTable s) n = 0 := by
      refine if_neg ?_
      rw [stoppedTable_ch, stoppedTable_prof]
      rintro ⟨hhold, hcs⟩
      rw [(hch n).2.2 hhold] at hcs
      cases hcs
    have hsum : (stoppedTable s).holdSum = 0 := holdSum_of_zero hzero
    exact hsum.symm

/-- A view emptied while no output holds. -/
theorem coils_clearView {s : State} (h : CoilsSound s) (hrun : s.sl.station ≠ .run) : CoilsSound (clearView s) := by
  obtain ⟨-, -, -, -, hchan⟩ := rest_of_not_run h hrun
  have hzero (n : Out) : heldIn s n = 0 := by
    refine heldIn_of_ne ?_
    obtain ⟨hst | hst, -⟩ := hchan n <;> simp [hst]
  obtain ⟨hqueue, hflight, houtputs, hflippers, ⟨-, hown⟩, -, hrest, hsettings⟩ := h
  have hget (i : Fin 63) : (clearView s).db.standing.get i = { s.db.standing.get i with draw := 0 } :=
    Bank.get_mapIdx _ _ _
  refine ⟨hqueue, hflight, houtputs, hflippers, ⟨fun i _ => ?_, fun hst => ?_⟩, fun i _ => ?_, hrest, hsettings⟩
  · rw [hget]
  · obtain ⟨i, hi, hpresent⟩ := hown hst
    exact ⟨i, hi, by rw [hget]; exact hpresent⟩
  · rw [hget]
    have hsum : s.holdSum = 0 := holdSum_of_zero hzero
    exact hsum.symm

/-- The table stop, also where the STOP pattern has just cleared the claim. -/
theorem coils_tableStop {s : State} (h : CoilsSound s) (claim : Option Claim)
    (hclaim : claim = none ∨ claim = s.db.claim) : CoilsSound (tableStop { s with db := { s.db with claim := claim } }) := by
  by_cases hrun : s.sl.station = .run
  · obtain ⟨⟨⟨⟨-, houtputs, -, hown⟩, -⟩, -⟩, -⟩ := full_of_coilsSound hrun h
    have hstopped := coils_stoppedTable (s := { s with db := { s.db with claim := claim } }) hrun
      (fun n => (houtputs n).mono False.elim) hown
    rw [tableStop_of_run (s := { s with db := { s.db with claim := claim } }) hrun]
    split
    · exact coils_announce hstopped
    · exact hstopped
  · have hnone : s.db.claim = none := (rest_of_not_run h hrun).2.1
    have hsame : claim = s.db.claim := hclaim.elim (fun hc => hc.trans hnone.symm) id
    subst hsame
    unfold tableStop
    rw [if_neg hrun]
    split
    · exact coils_clearView h hrun
    · exact h

theorem coils_raiseStop {s : State} (h : CoilsSound s) : CoilsSound (raiseStop s) := by
  unfold raiseStop
  split
  · exact coils_tableStop h s.db.claim (.inr rfl)
  · split
    · exact coils_of_eq h rfl rfl rfl rfl rfl rfl rfl rfl rfl
    · exact h

/-! ### Flippers (R75–R84) -/

/-- A flipper moved: to REST, or in PLAY while the station is not stopped. -/
theorem coils_setFlip {s : State} (h : CoilsSound s) (f : Flip) (r : Flipper)
    (hr : r.state = .rest ∨ s.pc.state = .play ∧ s.pc.stopped = false) : CoilsSound (s.setFlip f r) := by
  obtain ⟨hqueue, hflight, houtputs, hflippers, hrecords, hstanding, hrest, hsettings⟩ := h
  refine ⟨hqueue, hflight, houtputs, fun hstop g => ?_, hrecords, hstanding, hrest, hsettings⟩
  show ((s.fl.set f r).get g).state = .rest
  rw [Bank.get_set]
  split
  · refine hr.resolve_right ?_
    rintro ⟨hplay, hgo⟩
    obtain hs | hs := hstop
    · exact hs hplay
    · exact absurd (hgo.symm.trans hs) (by decide)
  · exact hflippers hstop g

/-- A flipper that is not at REST is up in PLAY, the station in RUN and not stopped. -/
theorem play_of_flipper {s : State} (h : CoilsSound s) {f : Flip} (hf : (s.fl.get f).state ≠ .rest) :
    s.pc.state = .play ∧ s.pc.stopped = false ∧ s.sl.station = .run := by
  obtain ⟨-, -, -, hflippers, -, -, hrest, -⟩ := h
  have hplay : s.pc.state = .play := by
    refine Classical.byContradiction fun hnot => ?_
    exact hf (hflippers (.inl hnot) f)
  refine ⟨hplay, ?_, ?_⟩
  · refine Classical.byContradiction fun hgo => ?_
    exact hf (hflippers (.inr (by simpa using hgo)) f)
  · refine Classical.byContradiction fun hrun => ?_
    obtain ⟨-, -, hidle, -⟩ := hrest hrun
    rw [hplay] at hidle
    cases hidle

theorem coils_setFlip_up {s : State} (h : CoilsSound s) {f : Flip} (hf : (s.fl.get f).state ≠ .rest) (r : Flipper) :
    CoilsSound (s.setFlip f r) := by
  obtain ⟨hplay, hgo, -⟩ := play_of_flipper h hf
  exact coils_setFlip h f r (.inr ⟨hplay, hgo⟩)

/-- Only heat, counts and checks of a channel changed. -/
theorem alike_updCh {s : State} {n : Out} {f : Channel → Channel}
    (hf : (f (s.ch n)).state = (s.ch n).state ∧ (f (s.ch n)).repeats = (s.ch n).repeats ∧
      (f (s.ch n)).train = (s.ch n).train ∧ (f (s.ch n)).holdDraw = (s.ch n).holdDraw) : Alike s (s.updCh n f) := by
  refine ⟨rfl, rfl, rfl, fun m => ?_, rfl, rfl, fun _ => ⟨rfl, id⟩, fun _ => rfl, rfl, rfl⟩
  rw [updCh_ch]
  split
  next hm =>
    subst hm
    exact hf
  next => exact ⟨rfl, rfl, rfl, rfl⟩

theorem alike_heatUp (s : State) (n : Out) (t : Nat) : Alike s (s.heatUp n t) := alike_updCh ⟨rfl, rfl, rfl, rfl⟩

theorem coils_press {s : State} (h : CoilsSound s) {f : Flip} (hpress : s.canPress f = true) :
    CoilsSound (press s f) := by
  simp only [State.canPress, Bool.and_eq_true, decide_eq_true_eq, Bool.not_eq_true'] at hpress
  obtain ⟨⟨⟨⟨-, hplay⟩, hgo⟩, -⟩, -⟩ := hpress
  exact (alike_heatUp _ _ _).coils (coils_setFlip h f _ (.inr ⟨hplay, hgo⟩))

theorem coils_flipHold {s : State} (h : CoilsSound s) {f : Flip} (hf : (s.fl.get f).state ≠ .rest) :
    CoilsSound (flipHold s f) := coils_setFlip_up h hf _

theorem coils_eosOpen {s : State} (h : CoilsSound s) (f : Flip) : CoilsSound (eosOpen s f) := by
  unfold eosOpen
  dsimp only
  split
  next hhold => exact (alike_heatUp _ _ _).coils (coils_setFlip_up h (by simp [hhold.1]) _)
  next => exact h

theorem coils_flipperLevel {s : State} (h : CoilsSound s) (sw : Sw) (closed : Bool) (f : Flip) :
    CoilsSound (flipperLevel s sw closed f) := by
  unfold flipperLevel
  dsimp only
  split
  case isFalse => exact h
  split
  · split
    · unfold buttonClose
      split
      next hpress => exact coils_press h hpress
      next => exact h
    · exact coils_setFlip h f _ (.inl (rest_state _))
  split
  · split
    · unfold eosClose
      dsimp only
      split
      next hpower => exact coils_flipHold h (by simp [hpower.1])
      next => exact h
    · exact coils_eosOpen h f
  · exact h

/-- Sound steps taken one for each item of a list. -/
theorem coils_foldl {α : Type} {f : State → α → State} (hf : ∀ {s} x, CoilsSound s → CoilsSound (f s x))
    (l : List α) : ∀ {s}, CoilsSound s → CoilsSound (l.foldl f s) := by
  induction l with
  | nil => exact id
  | cons x rest ih => exact fun h => ih (hf x h)

theorem coils_flippersLevel {s : State} (h : CoilsSound s) (sw : Sw) (closed : Bool) :
    CoilsSound (flippersLevel s sw closed) :=
  coils_foldl (fun f h => coils_flipperLevel h sw closed f) _ h

theorem coils_toFault {s : State} (h : CoilsSound s) (hrun : s.sl.station = .run) (n : Out) (kind : FaultKind) :
    CoilsSound (toFault s n kind) :=
  coils_work hrun (coilWork_toFault s n kind) (fun hs => full_toFault hs.core n kind) h

theorem coils_flipperFault {s : State} (h : CoilsSound s) (hrun : s.sl.station = .run) (f : Flip) (n : Out) :
    CoilsSound (flipperFault s f n) := by
  have hrest : CoilsSound (s.setFlip f { (s.fl.get f).rest with disabled := true }) :=
    coils_setFlip h f _ (.inl (rest_state _))
  unfold flipperFault
  exact coils_toFault hrest hrun n .short

/-- An output in FAULT cleared to FLIPPER where CS does not drive it, or to OFF (R24, R85). -/
theorem coils_cleared {s : State} (h : CoilsSound s) {n : Out} (hfault : (s.ch n).state = .fault) {st : ChanState}
    (hst : st = .flipper ∧ (s.prof n).mode.isCS = false ∨ st = .off) : CoilsSound (s.updCh n (·.cleared st)) := by
  have hrun := run_of_state h (n := n) (by simp [hfault]) (by simp [hfault])
  refine coils_work hrun (coilWork_updCh s n _) (fun hs => ?_) h
  obtain ⟨howed, htrain⟩ := (hs.output n).faulty hfault
  have hafter : st ≠ .queued ∧ st ≠ .hold ∧ st ≠ .fault := by
    obtain ⟨rfl, -⟩ | rfl := hst <;> decide
  have hoff (hcs : (s.prof n).mode.isCS = true) : st = .off := by
    obtain ⟨-, hnot⟩ | hoff := hst
    · rw [hcs] at hnot
      cases hnot
    · exact hoff
  refine full_updCh_move hs (by simp [hfault]) ⟨hafter.1, hafter.2.1⟩ ⟨(hs.output n).owed, fun _ => ?_, fun hcs => ?_,
    fun hf => absurd hf hafter.2.2, fun hcs _ => ⟨.inl (hoff hcs), howed, htrain⟩⟩
  · show st = .off ∨ st = .flipper ∨ st = .fault
    obtain ⟨hflipper, -⟩ | hoff := hst
    · exact .inr (.inl hflipper)
    · exact .inl hoff
  · show st ≠ .flipper
    rw [hoff hcs]
    decide

/-- A flipper's record changed in what is not its state. -/
theorem alike_setFlip (s : State) (f : Flip) {r : Flipper} (hr : r.state = (s.fl.get f).state) :
    Alike s { s with fl := s.fl.set f r } := by
  refine ⟨rfl, rfl, rfl, fun _ => ⟨rfl, rfl, rfl, rfl⟩, rfl, rfl, fun _ => ⟨rfl, id⟩, fun g => ?_, rfl, rfl⟩
  show ((s.fl.set f r).get g).state = (s.fl.get g).state
  rw [Bank.get_set]
  split
  next hg => rw [hg, hr]
  next => rfl

theorem coils_clearOutput {s : State} (h : CoilsSound s) (n : Out) : CoilsSound (clearOutput s n) := by
  unfold clearOutput
  split
  case isFalse => exact h
  next hfault =>
  split
  next hmode =>
    have hflipper := coils_cleared h hfault (.inl ⟨rfl, by rw [hmode]; rfl⟩)
    dsimp only
    split
    next f _ =>
      split
      · exact (alike_setFlip (s.updCh n (·.cleared .flipper)) f (r := { s.fl.get f with disabled := false }) rfl).coils
          hflipper
      · exact hflipper
    next => exact hflipper
  next => exact coils_cleared h hfault (.inr rfl)

/-! ### Actions, events and commands -/

theorem coils_lampSet {s : State} (h : CoilsSound s) (l : Lamp) (mode : LampMode) (b : Nat) (pattern : BitVec 16) :
    CoilsSound (lampSet s l mode b pattern) := by
  unfold lampSet
  split
  · exact coils_of_eq h rfl rfl rfl rfl rfl rfl rfl rfl rfl
  · exact h

theorem coils_runAction {s : State} (h : CoilsSound s) (a : Action) : CoilsSound (runAction s a) := by
  cases a with
  | notInUse => exact h
  | fire n => exact coils_coilRequest h n _
  | hold n => exact coils_coilRequest h n _
  | release n => exact coils_coilRequest h n _
  | train n req => exact coils_coilRequest h n _
  | trainStop n cancel => exact coils_coilRequest h n _
  | lampSet l mode b pattern => exact coils_lampSet h l mode b pattern
  | raiseTilt => exact coils_raisePlay h _
  | raiseSlam => exact coils_raisePlay h _
  | tableStop => exact coils_raiseStop h
  | gameStart => exact coils_raisePlay h _
  | gameOver => exact coils_raisePlay h _

theorem coils_countUnmatched {s : State} (h : CoilsSound s) : CoilsSound s.countUnmatched :=
  coils_of_eq h rfl rfl rfl rfl rfl rfl rfl rfl rfl

theorem coils_countBad {s : State} (h : CoilsSound s) : CoilsSound s.countBad :=
  coils_of_eq h rfl rfl rfl rfl rfl rfl rfl rfl rfl

theorem coils_routeEvent {s : State} (h : CoilsSound s) (source : BitVec 6) (payload : List Byte) :
    CoilsSound (routeEvent s source payload) := by
  unfold routeEvent
  split
  case isFalse => exact h
  split
  · exact coils_countUnmatched h
  split
  · exact coils_runAction h _
  · exact coils_countUnmatched h

theorem alike_lc (s : State) (lc : Link) : Alike s { s with lc := lc } := alike_of_eq rfl rfl rfl rfl rfl rfl rfl rfl rfl

theorem alike_clearOverflow (s : State) (page : Nat) : Alike s (clearOverflow s page) := by
  unfold clearOverflow
  split
  · split
    · exact alike_updCh ⟨rfl, rfl, rfl, rfl⟩
    · exact .refl s
  · exact .refl s

theorem coils_answerQuery {s : State} (h : CoilsSound s) (page : Nat) : CoilsSound (answerQuery s page) := by
  refine (alike_lc _ _).coils ?_
  split
  · exact h
  · exact (alike_clearOverflow s page).coils h

theorem coils_runCommand {s : State} (h : CoilsSound s) (c : Command) : CoilsSound (runCommand s c) := by
  cases c with
  | coil n r => exact coils_coilRequest h n r
  | lampSet l mode b pattern => exact coils_lampSet h l mode b pattern
  | clear n => exact coils_clearOutput h n
  | query page =>
    show CoilsSound (answerQuery (if 22 < page then s.countBad else s) page)
    split
    · exact coils_answerQuery (coils_countBad h) page
    · exact coils_answerQuery h page

theorem alike_received (s : State) (source : BitVec 6) : Alike s (received s source) := by
  refine ⟨received_cfg s source, by rw [received_sl], by rw [received_sl], fun n => ?_, by rw [received_cs],
    received_claim s source, fun i => ?_, fun f => by rw [received_fl], by rw [received_pc], by rw [received_pc]⟩
  · rw [received_ch]
    exact ⟨rfl, rfl, rfl, rfl⟩
  · rw [received_standing_get]
    split
    · exact ⟨rfl, fun _ => rfl⟩
    · exact ⟨rfl, id⟩

theorem coils_received {s : State} (h : CoilsSound s) (source : BitVec 6) : CoilsSound (received s source) :=
  (alike_received s source).coils h

theorem coils_commandReceived {s : State} (h : CoilsSound s) (k : CommandKind) (f : Heard) :
    CoilsSound (commandReceived s k f) := by
  unfold commandReceived
  split
  case isFalse => exact h
  have hreceived := coils_received h f.source
  unfold commandTaken
  split
  case isFalse => exact hreceived
  split
  · exact coils_runCommand hreceived _
  · exact coils_countBad hreceived

/-! ### Edges -/

theorem coils_applyRule {s : State} (h : CoilsSound s) (r : Rule) (sw : Sw) (close : Bool) :
    CoilsSound (applyRule s r sw close) := by
  unfold applyRule
  extract_lets t
  have ht : CoilsSound t := by
    show CoilsSound (match r.action with | some a => _ | none => _)
    split
    · exact coils_runAction h _
    · exact h
  split
  · unfold ruleEvent
    split
    · exact ht
    · exact (alike_hand _ _).coils ht
  · exact ht

theorem coils_applyRules {s : State} (h : CoilsSound s) (sw : Sw) (close : Bool) : CoilsSound (applyRules s sw close) :=
  coils_foldl (fun r h => coils_applyRule h r sw close) _ h

theorem coils_picks {s : State} (h : CoilsSound s) (picks : Nat) : CoilsSound { s with picks := picks } :=
  coils_of_eq h rfl rfl rfl rfl rfl rfl rfl rfl rfl

theorem coils_edge {s : State} (h : CoilsSound s) (sw : Sw) (close : Bool) : CoilsSound (edge s sw close) := by
  have hpart {s : State} (part : Option Rule) (h : CoilsSound s) : CoilsSound (edgePart s part sw close) := by
    cases part with
    | some r => exact coils_applyRule h r sw close
    | none => exact coils_flippersLevel h sw close
  unfold edge
  split
  · exact coils_foldl hpart _ (coils_picks h _)
  split
  · dsimp only
    split
    · exact coils_flippersLevel (coils_applyRules (coils_picks h _) sw close) sw close
    · exact coils_applyRules (coils_flippersLevel (coils_picks h _) sw close) sw close
  · exact coils_flippersLevel (coils_applyRules h sw close) sw close

end Sys2Proof.Proofs
end

section
/-! Every step keeps what is said of outputs, queue, claim, flippers, own record and settings (O4), and it holds at
reset, as the bounds and the slots do (O2). -/

namespace Sys2Proof.Proofs
open Sys2Proof.Machine

/-- Whatever state an outcome answers is sound. -/
def SoundTo (o : Host.Outcome State Fault Refusal) : Prop := ∀ t, o = .next t → CoilsSound t

theorem soundTo_next {t : State} (h : CoilsSound t) : SoundTo (.next t) := by
  rintro _ ⟨rfl⟩
  exact h

theorem soundTo_ite {s t : State} {p : Prop} [Decidable p] (h : CoilsSound s) (ht : p → CoilsSound t) :
    SoundTo (if p then .next t else .next s) := by
  split
  next hp => exact soundTo_next (ht hp)
  next => exact soundTo_next h

theorem alike_waitDropped (s : State) : Alike s s.waitDropped := alike_of_eq rfl rfl rfl rfl rfl rfl rfl rfl rfl

theorem phase_state {s : State} {n : Out} {st : ChanState} (hover : s.phaseOver n st = true) :
    (s.ch n).state = st := by
  unfold State.phaseOver at hover
  rw [Bool.and_eq_true, decide_eq_true_eq] at hover
  exact hover.1

theorem notePowerEnd_ch (s : State) (n : Out) : (s.notePowerEnd n).ch = s.ch := by
  unfold State.notePowerEnd
  split <;> rfl

section Commands

variable {s : State} (h : CoilsSound s)
include h

/-! ### The link -/

theorem coils_lc (lc : Link) : CoilsSound { s with lc := lc } := (alike_lc s lc).coils h

/-- A withdrawn claim cleared (R63). -/
theorem coils_withdrawnGone {c : Claim} (hc : s.db.claim = some c) (hw : c.withdrawn = true) (lc : Link) :
    CoilsSound { s with db := { s.db with claim := none }, lc := lc } := by
  have hclear := coils_clearClaim h
  unfold clearClaim at hclear
  rw [hc] at hclear
  dsimp only at hclear
  rw [if_pos hw] at hclear
  exact coils_lc hclear lc

theorem coils_arbitrationLost : SoundTo (execArbitrationLost s) := by
  unfold execArbitrationLost
  split
  case h_2 => exact soundTo_next h
  split
  case h_2 => exact soundTo_next h
  dsimp only
  refine soundTo_next ?_
  unfold arbitrationEnd
  dsimp only
  split
  · split
    next c hc =>
      split
      next hw => exact coils_select (coils_withdrawnGone h hc hw _)
      next => exact coils_lc h _
    next => exact coils_lc h _
  split
  · exact coils_lc h _
  · exact coils_lc h _

theorem coils_ownHandedOn (f : Frame) : CoilsSound (ownHandedOn s f) := by
  unfold ownHandedOn
  split
  · exact coils_select (coils_decideClaim h _)
  split
  · exact coils_playFrameTaken h _ _
  split
  · exact coils_routeEvent h _ _
  · exact h

theorem coils_giveUp (plays : List PlayFrame) : CoilsSound (giveUp s plays) := by
  unfold giveUp
  split
  · exact coils_select h
  · refine coils_foldl (fun x ht => ?_) _ (coils_picks h _)
    cases x with
    | none => exact coils_select ht
    | some k => exact coils_playChange ht k

theorem coils_enterSilent (dropped : Option PlayFrame) : CoilsSound (enterSilent s dropped) := by
  unfold enterSilent
  refine coils_giveUp ?_ _
  exact coils_of_eq (coils_clearClaim h) rfl rfl rfl rfl rfl rfl rfl rfl rfl

theorem coils_countError (kind : ErrKind) (dropped : Option PlayFrame) {rest : State → State}
    (hrest : ∀ {t}, CoilsSound t → CoilsSound (rest t)) : CoilsSound (countError s kind dropped rest) := by
  unfold countError
  dsimp only
  split
  · exact coils_enterSilent (coils_lc h _) dropped
  · exact hrest (coils_lc h _)

theorem coils_transmitError (kind : ErrKind) (found : Tick) : SoundTo (execTransmitError kind found s) := by
  unfold execTransmitError
  split
  case h_2 => exact soundTo_next h
  split
  case h_2 => exact soundTo_next h
  dsimp only
  split
  · refine soundTo_next (coils_countError ?_ kind none coils_select)
    unfold claimError
    dsimp only
    split
    · exact coils_decideClaim (coils_lc h _) found
    · exact coils_clearClaim (coils_lc h _)
  split
  · exact soundTo_next (coils_countError (coils_lc h _) kind none id)
  · refine soundTo_next (coils_countError (coils_lc h _) kind _ fun ht => ?_)
    split
    · exact coils_playChange ht _
    · exact ht

theorem coils_stopPattern : SoundTo (execStopPattern s) := by
  refine soundTo_ite h fun _ => ?_
  have hlc := coils_lc h s.lc.stopRecognised
  split
  · exact coils_tableStop hlc none (.inl rfl)
  · exact coils_tableStop hlc s.db.claim (.inr rfl)

/-! ### Frames of other stations -/

theorem coils_claimHeard (f : Heard) : SoundTo (execClaimHeard f s) := by
  have hreceived := coils_received h f.source
  refine soundTo_ite h fun _ => ?_
  unfold judgeClaim
  split
  · split
    · exact coils_of_eq hreceived rfl rfl rfl rfl rfl rfl rfl rfl rfl
    · exact hreceived
  · exact hreceived

/-- Another station's record set, where DB keeps a view. -/
theorem coils_record (hview : s.viewing = true) {i : Fin 63} (hi : s.own.toNat ≠ i.val) {r : Standing}
    (hr : r.present = false → r.draw = 0) :
    CoilsSound { s with db := { s.db with standing := s.db.standing.set i r } } := by
  have hother (j : Fin 63) (hj : s.own.toNat = j.val) : (s.db.standing.set i r).get j = s.db.standing.get j := by
    refine Bank.get_set_ne _ _ ?_
    rintro rfl
    exact hi hj
  obtain ⟨hqueue, hflight, houtputs, hflippers, ⟨hrecords, hown⟩, hstanding, hrest, hsettings⟩ := h
  refine ⟨hqueue, hflight, houtputs, hflippers, ⟨fun j hj => ?_, fun hst => ?_⟩, fun j hj => ?_, hrest, hsettings⟩
  · show ((s.db.standing.set i r).get j).draw = 0
    have hj' : ((s.db.standing.set i r).get j).present = false := hj.resolve_right (by
      show ¬ s.viewing = false
      simp [hview])
    rw [Bank.get_set] at hj' ⊢
    split
    next hij =>
      rw [if_pos hij] at hj'
      exact hr hj'
    next hij =>
      rw [if_neg hij] at hj'
      exact hrecords j (.inl hj')
  · obtain ⟨j, hj, hpresent⟩ := hown hst
    exact ⟨j, hj, (congrArg Standing.present (hother j hj)).trans hpresent⟩
  · exact (congrArg Standing.draw (hother j hj)).trans (hstanding j hj)

theorem coils_standingHeard (f : Heard) : SoundTo (execStandingHeard f s) := by
  have hreceived := coils_received h f.source
  unfold execStandingHeard
  split
  case isFalse => exact soundTo_next h
  dsimp only
  split
  case isFalse => exact soundTo_next hreceived
  next hread =>
  split
  case h_2 => exact soundTo_next hreceived
  next i hi =>
    obtain ⟨hview, hown, -⟩ := hread
    have hsource := standingIdx_eq_some_iff.mp hi
    have hset := coils_record hreceived hview (i := i)
      (r := ⟨min 4095 (pWord f.payload 1), (received s f.source).tick, true⟩)
      (fun heq => hown (BitVec.eq_of_toNat_eq (hsource.trans heq.symm))) nofun
    refine soundTo_next ?_
    unfold standingSet
    dsimp only
    split
    · exact coils_viewDecrease hset
    · exact hset

theorem coils_lp (lp : Lamps) : CoilsSound { s with lp := lp } := coils_of_eq h rfl rfl rfl rfl rfl rfl rfl rfl rfl

theorem coils_handBeat (beat : BitVec 8) : CoilsSound (handBeat s beat) := by
  unfold handBeat
  split
  · exact coils_lc h _
  · exact h

theorem coils_beatReceived (f : Heard) (sofPhase : Fin 320) (sofBeat : BitVec 8) :
    SoundTo (execBeatReceived f sofPhase sofBeat s) := by
  have hreceived := coils_received h f.source
  unfold execBeatReceived
  split
  case isFalse => exact soundTo_next h
  dsimp only
  split
  · exact soundTo_next hreceived
  split
  · refine soundTo_next ?_
    unfold takeBeat
    dsimp only
    split
    · exact coils_handBeat (coils_lp hreceived _) _
    · exact coils_lp hreceived _
  · exact soundTo_next hreceived

/-! ### Outputs -/

theorem coils_guardPassed (n : Out) : SoundTo (execGuardPassed n s) := by
  unfold execGuardPassed
  split
  case h_2 => exact soundTo_next h
  next e he =>
    refine soundTo_ite h fun _ => ?_
    refine coils_work (run_of_entry h (List.mem_of_find?_eq_some he)) (coilWork_updEntry s n _) (fun hs => ?_) h
    refine full_entries hs _ (fun x => ?_) fun x => ?_
    · split <;> exact ⟨rfl, rfl⟩
    · split <;> rfl

theorem coils_waitLimit (n : Out) : SoundTo (execWaitLimitExpiry n s) := by
  unfold execWaitLimitExpiry
  split
  case h_2 => exact soundTo_next h
  next e he =>
    refine soundTo_ite h fun _ => ?_
    have hrun := run_of_entry h (List.mem_of_find?_eq_some he)
    have hmem := List.mem_of_find?_eq_some he
    have hout : e.output = n := by simpa using List.find?_some he
    refine coils_work hrun (coilWork_waitDrop s n) (fun hs => ?_) h
    have hqueued : (s.ch n).state = .queued := (hs.core.lined.queued n).mpr ⟨e, hmem, hout⟩
    obtain ⟨hcs, hopen⟩ := (hs.output n).of_works (.inl hqueued)
    have hdropped : Full (shutIn s) (toOff ((dequeue s n).updCh n Channel.dropWork) n) := by
      rw [toOff, updCh_dequeue, updCh_dequeue, updCh_updCh]
      exact full_dequeue hs (by simp [hqueued]) ⟨nofun, nofun⟩
        (channelOk_of_open hcs hopen (Nat.zero_le _) nofun nofun)
    exact full_select ((alike_waitDropped _).full hdropped)

theorem coils_notePowerEnd (n : Out) : CoilsSound (s.notePowerEnd n) := by
  unfold State.notePowerEnd
  split
  · exact coils_of_eq h rfl rfl rfl rfl rfl rfl rfl rfl rfl
  · exact h

theorem coils_coolFrom {n : Out} (hstate : (s.ch n).state = .power ∨ (s.ch n).state = .gap) :
    CoilsSound (coolFrom s n) := by
  have hrun := run_of_state h (n := n) (by obtain hst | hst := hstate <;> simp [hst])
    (by obtain hst | hst := hstate <;> simp [hst])
  exact coils_work hrun (coilWork_coolFrom s n) (fun hs => full_coolFrom hs hstate) h

theorem coils_enterHold {n : Out} (hstate : (s.ch n).state = .power) : CoilsSound (enterHold s n) := by
  have hrun := run_of_state h (n := n) (by simp [hstate]) (by simp [hstate])
  refine coils_work hrun (coilWork_enterHold s n) (fun hs => ?_) h
  obtain ⟨hcs, hopen⟩ := (hs.output n).of_works (.inr (.inl hstate))
  exact full_enterHold hs.core (by simp [hstate]) hcs hopen

theorem coils_powerEnd (n : Out) : SoundTo (execPowerEnd n s) := by
  unfold execPowerEnd
  dsimp only
  split
  case isFalse => exact soundTo_next h
  next hend =>
  have hpower := phase_state hend.1
  have hrun := run_of_state h (n := n) (by simp [hpower]) (by simp [hpower])
  have hnoted : ((s.notePowerEnd n).ch n).state = .power := by rw [notePowerEnd_ch, hpower]
  split
  · exact soundTo_next (coils_toFault h hrun n _)
  split
  · exact soundTo_next (coils_enterHold (coils_notePowerEnd h n) hnoted)
  · exact soundTo_next (coils_coolFrom (coils_notePowerEnd h n) (.inl hnoted))

theorem coils_maxHoldExpiry (n : Out) : SoundTo (execMaxHoldExpiry n s) := by
  refine soundTo_ite h fun hover => ?_
  have hhold := phase_state hover
  have hrun := run_of_state h (n := n) (by simp [hhold]) (by simp [hhold])
  refine coils_work hrun ((coilWork_updCh s n _).trans (coilWork_leaveHold _ n)) (fun hs => ?_) h
  refine full_leaveHold (core_updCh hs.core Iff.rfl ((hs.output n).congr rfl rfl rfl)) ?_
  rw [updCh_ch_self]
  exact hhold

theorem coils_coolEnd (n : Out) : SoundTo (execCoolEnd n s) := by
  refine soundTo_ite h fun hend => ?_
  have hcool := phase_state hend.1
  have hrun := run_of_state h (n := n) (by simp [hcool]) (by simp [hcool])
  exact coils_work hrun (coilWork_coolOver s n) (fun hs => full_coolOver hs hcool) h

theorem coils_trainPulseEnd (n : Out) : SoundTo (execTrainPulseEnd n s) := by
  unfold execTrainPulseEnd
  dsimp only
  split
  · exact soundTo_next h
  split
  case isFalse => exact soundTo_next h
  next hover =>
  have hpower := phase_state hover
  have hrun := run_of_state h (n := n) (by simp [hpower]) (by simp [hpower])
  split
  · exact soundTo_next (coils_toFault h hrun n _)
  split
  · split
    · refine soundTo_next (coils_work hrun (coilWork_updCh s n _) (fun hs => ?_) h)
      exact full_updCh_move hs (by simp [hpower]) ⟨nofun, nofun⟩
        (channelOk_moved (hs.output n) (.inr (.inl hpower)) rfl nofun nofun)
    · exact soundTo_next (coils_coolFrom h (.inl hpower))
  · exact soundTo_next (coils_coolFrom h (.inl hpower))

theorem coils_burstPulseStart (n : Out) : SoundTo (execBurstPulseStart n s) := by
  unfold execBurstPulseStart
  dsimp only
  split
  · exact soundTo_next h
  split
  · exact soundTo_next h
  refine soundTo_ite h fun hgap => ?_
  have hstate := hgap.1
  have hrun := run_of_state h (n := n) (by simp [hstate]) (by simp [hstate])
  refine coils_work hrun (coilWork_updCh s n _) (fun hs => ?_) h
  exact full_updCh_move hs (by simp [hstate]) ⟨nofun, nofun⟩
    (channelOk_moved (hs.output n) (.inr (.inr (.inr hstate))) rfl nofun nofun)

theorem coils_burstCoolEnd (n : Out) : SoundTo (execBurstCoolEnd n s) := by
  unfold execBurstCoolEnd
  split
  · exact soundTo_next h
  next tr htrain =>
    refine soundTo_ite h fun hover => ?_
    have hcool := phase_state hover
    have hrun := run_of_state h (n := n) (by simp [hcool]) (by simp [hcool])
    exact coils_work hrun (coilWork_burstCoolOver s n tr) (fun hs => full_burstCoolOver hs hcool htrain) h

theorem coils_fastTrip (n : Out) (current : Nat) : SoundTo (execFastTrip n current s) := by
  refine soundTo_ite h fun ⟨_, hstate, _⟩ => coils_toFault h ?_ n _
  obtain hst | hst | hst := hstate <;> exact run_of_state h (n := n) (by simp [hst]) (by simp [hst])

/-! ### Sensing -/

theorem coils_sc (sc : Sense) : CoilsSound { s with sc := sc } := coils_of_eq h rfl rfl rfl rfl rfl rfl rfl rfl rfl

theorem coils_uncheckedPhase : CoilsSound s.uncheckedPhase := coils_of_eq h rfl rfl rfl rfl rfl rfl rfl rfl rfl

theorem coils_openCheckRequest (n : Out) : SoundTo (execOpenCheckRequest n s) := by
  have hcheck : CoilsSound (s.updCh n Channel.checking) := (alike_updCh ⟨rfl, rfl, rfl, rfl⟩).coils h
  unfold execOpenCheckRequest
  dsimp only
  split
  case h_2 => exact soundTo_next h
  refine soundTo_ite h fun _ => coils_sc ?_ _
  split
  · exact coils_uncheckedPhase hcheck
  · exact hcheck

theorem coils_openCheckResult (n : Out) (phase : Tick) (i : Nat) : CoilsSound (openCheckResult s n phase i) := by
  unfold openCheckResult
  split
  · exact (alike_updCh ⟨rfl, rfl, rfl, rfl⟩).coils h
  · exact coils_uncheckedPhase ((alike_updCh ⟨rfl, rfl, rfl, rfl⟩).coils h)

theorem coils_conversionEnd (raw : BitVec 10) : SoundTo (execCurrentConversionEnd raw s) := by
  unfold execCurrentConversionEnd
  split
  · exact soundTo_next (coils_openCheckResult (coils_sc h _) _ _ _)
  · exact soundTo_next h

theorem coils_supplyReadingEnd (raw : BitVec 10) : SoundTo (execSupplyReadingEnd raw s) := by
  unfold execSupplyReadingEnd
  split
  case h_2 => exact soundTo_next h
  dsimp only
  split
  · exact soundTo_next (coils_sc h _)
  split
  · exact soundTo_next (coils_select (coils_sc h _))
  · exact soundTo_next (coils_sc h _)

theorem coils_take (f : Falling) : CoilsSound (s.take f) := coils_of_eq h rfl rfl rfl rfl rfl rfl rfl rfl rfl

theorem coils_decayHeat : CoilsSound (decayHeat s) := by
  refine Alike.coils (s := s) ⟨rfl, rfl, rfl, fun n => ?_, rfl, rfl, fun _ => ⟨rfl, id⟩, fun _ => rfl, rfl, rfl⟩ h
  rw [show (decayHeat s).ch n = _ from Bank.get_mapIdx _ _ _]
  exact ⟨rfl, rfl, rfl, rfl⟩

theorem coils_heatDecayPass : SoundTo (execHeatDecayPass s) := by
  have htake := coils_take h .heatDecay
  unfold execHeatDecayPass
  split
  case isFalse => exact soundTo_next h
  dsimp only
  split
  · exact soundTo_next (coils_select (coils_decayHeat htake))
  · exact soundTo_next htake

/-! ### Flippers, draw budget and switches -/

theorem coils_flipperTrip (n : Out) (current : Nat) (partner : Option Nat) :
    SoundTo (execFlipperTrip n current partner s) := by
  unfold execFlipperTrip
  split
  · exact soundTo_next h
  next f _ =>
    extract_lets first t
    have hup {m : Out} {c : Nat} (htrip : s.flipTrips f m c = true) : s.sl.station = .run := by
      refine (play_of_flipper h (f := f) fun hrest => ?_).2.2
      simp [State.flipTrips, State.flipArmed, hrest] at htrip
    have ht : CoilsSound t ∧ t.sl = s.sl := by
      show CoilsSound (if _ then _ else _) ∧ State.sl (if _ then _ else _) = _
      split
      next htrip =>
        refine ⟨coils_flipperFault h (hup htrip) f n, ?_⟩
        unfold flipperFault
        rw [coilWork_toFault]
        rfl
      next => exact ⟨h, rfl⟩
    obtain ⟨hcoils, hsl⟩ := ht
    split
    · split
      next htrip => exact soundTo_next (coils_flipperFault hcoils (by rw [hsl]; exact hup htrip) f _)
      next => exact soundTo_next hcoils
    · exact soundTo_next hcoils

theorem coils_entryExpiry : SoundTo (execEntryExpiry s) :=
  soundTo_ite h fun _ => coils_viewDecrease (coils_of_eq h rfl rfl rfl rfl rfl rfl rfl rfl rfl)

theorem coils_ageingOut (i : Fin 63) : SoundTo (execAgeingOut i s) := by
  refine soundTo_ite h fun hdue => coils_viewDecrease ?_
  obtain ⟨hview, -, hown, -⟩ := (ageDue_iff s i).mp hdue
  exact coils_record h hview hown fun _ => rfl

theorem coils_setSw (sw : Sw) (r : Switch) : CoilsSound (s.setSw sw r) :=
  coils_of_eq h rfl rfl rfl rfl rfl rfl rfl rfl rfl

theorem coils_rawChange (sw : Sw) (high : Bool) : SoundTo (execRawChange sw high s) := by
  have hline : CoilsSound { s with lines := { s.lines with sw := s.lines.sw.set sw high } } :=
    coils_of_eq h rfl rfl rfl rfl rfl rfl rfl rfl rfl
  unfold execRawChange
  dsimp only
  split
  · exact soundTo_next (coils_setSw hline sw _)
  · exact soundTo_next hline

theorem coils_debounceEnd (sw : Sw) : SoundTo (execDebounceEnd sw s) := by
  unfold execDebounceEnd
  dsimp only
  split
  case isFalse => exact soundTo_next h
  split
  · exact soundTo_next (coils_edge (coils_setSw h sw _) sw _)
  · exact soundTo_next (coils_edge (coils_setSw h sw _) sw _)
  · exact soundTo_next (coils_flippersLevel (coils_setSw h sw _) sw _)
  · exact soundTo_next (coils_setSw h sw _)

theorem coils_beatPhaseZero : SoundTo (execBeatPhaseZero s) := by
  unfold execBeatPhaseZero
  split
  · exact soundTo_next (coils_handBeat (coils_take h _) _)
  · exact soundTo_next h

theorem coils_holdLimitEnd (f : Flip) : SoundTo (execHoldLimitEnd f s) := by
  refine soundTo_ite h fun _ => (alike_updCh ⟨rfl, rfl, rfl, rfl⟩).coils ?_
  exact (alike_setFlip s f (r := { s.fl.get f with reduced := true }) rfl).coils h

/-! ### The start loader -/

theorem coils_handStatus (due : Tick) : CoilsSound (handStatus s due) := by
  have hframes := coils_lc h ((statusFrames s 0).foldl Link.hand s.lc)
  unfold handStatus
  generalize (statusFrames s 0).foldl Link.hand s.lc = lc at *
  exact coils_of_eq hframes rfl rfl rfl rfl rfl rfl rfl rfl rfl

/-- Outside JOINING and RUN, nothing but the number and the own record tells one station state from another. -/
theorem coils_station (hview : s.viewing = false) {sl : Loader} (hto : sl.station ≠ .run) (hto' : sl.station ≠ .joining)
    (hload : sl.station = .loading →
      ∃ i : Fin 63, sl.number.toNat = i.val ∧ (s.db.standing.get i).present = true) :
    CoilsSound { s with sl := sl } := by
  have hnot : s.sl.station ≠ .run := fun hrun => by
    rw [viewing_of_run hrun] at hview
    cases hview
  have hrested := rest_of_not_run h hnot
  obtain ⟨-, -, -, -, hchan⟩ := hrested
  have hzero (n : Out) : heldIn s n = 0 := by
    refine heldIn_of_ne ?_
    obtain ⟨hst | hst, -⟩ := hchan n <;> simp [hst]
  have hsum : s.holdSum = 0 := holdSum_of_zero hzero
  obtain ⟨hqueue, hflight, houtputs, hflippers, ⟨hrecords, -⟩, -, hrest, hsettings⟩ := h
  refine ⟨hqueue, hflight, houtputs, hflippers, ⟨fun i _ => hrecords i (.inr hview), fun hst => ?_⟩, fun i _ => ?_,
    fun _ => hrest hnot, fun _ => hsettings hview⟩
  · obtain hst | hst | hst := hst
    · exact hload hst
    · exact absurd hst hto'
    · exact absurd hst hto
  · exact (hrecords i (.inr hview)).trans hsum.symm

theorem coils_enterUnconfigured (hview : s.viewing = false) (reason : Reason) (rate500 : Bool) :
    CoilsSound (enterUnconfigured s reason rate500) := by
  have hun : CoilsSound { s with sl := { s.sl with station := .unconfigured, reason := reason } } :=
    coils_station h hview (sl := { s.sl with station := .unconfigured, reason := reason }) nofun nofun nofun
  exact coils_handStatus (coils_lc hun _) _

/-- SL reads the straps, in RESET: a number 63 leads to UNCONFIGURED, another to LOADING with its record present. -/
theorem coils_readStraps (hreset : s.sl.station = .reset) (straps : BitVec 6) : CoilsSound (readStraps s straps) := by
  have hview : s.viewing = false := by simp [State.viewing, hreset]
  unfold readStraps
  extract_lets sl t
  split
  next =>
    have ht : CoilsSound t := coils_station h hview (sl := { s.sl with number := straps, resetLow := false })
      (by simp [hreset]) (by simp [hreset]) fun hload => absurd (hreset.symm.trans hload) (by decide)
    exact coils_enterUnconfigured ht hview _ _
  next hstraps =>
    have hlt : straps.toNat < 63 := by
      have hne : straps.toNat ≠ 63 := fun heq => hstraps (BitVec.eq_of_toNat_eq heq)
      have := straps.isLt
      omega
    let i : Fin 63 := ⟨straps.toNat, hlt⟩
    let own : Standing := { s.db.standing.get i with present := true }
    have hpresent : Alike s { s with db := { s.db with standing := s.db.standing.set i own } } := by
      refine ⟨rfl, rfl, rfl, fun _ => ⟨rfl, rfl, rfl, rfl⟩, rfl, rfl, fun j => ?_, fun _ => rfl, rfl, rfl⟩
      rw [Bank.get_set]
      split
      next hj =>
        subst hj
        exact ⟨rfl, fun _ => rfl⟩
      next => exact ⟨rfl, id⟩
    have hmark : markOwn { t with sl := { t.sl with station := .loading } } =
        { s with
          db := { s.db with standing := s.db.standing.set i own }
          sl := { s.sl with number := straps, resetLow := false, station := .loading } } := by
      have hi : straps.toNat = i.val := rfl
      unfold markOwn
      rw [show State.own { t with sl := { t.sl with station := .loading } } = straps from rfl, standingIdx_of hi]
    rw [hmark]
    refine coils_station (hpresent.coils h) hview (sl := { s.sl with
      number := straps, resetLow := false, station := .loading }) nofun nofun fun _ => ⟨i, rfl, ?_⟩
    show ((s.db.standing.set i own).get i).present = true
    rw [Bank.get_set_self]

/-- An image is accepted in LOADING: the settings are in force, each output is OFF or a flipper's. -/
theorem coils_accept (hload : s.sl.station = .loading) (cfg : Settings) : CoilsSound (accept s cfg) := by
  have hview : s.viewing = false := by simp [State.viewing, hload]
  have hnot : s.sl.station ≠ .run := by simp [hload]
  obtain ⟨hempty, hclaim, hidle, hgo, hchan⟩ := rest_of_not_run h hnot
  obtain ⟨-, -, -, hflippers, ⟨hrecords, hown⟩, -, -, -⟩ := h
  have hch (n : Out) : (accept s cfg).ch n = (s.ch n).configured (cfg.profiles.get n).mode := Bank.get_mapIdx _ _ _
  have hprof (n : Out) : (accept s cfg).prof n = cfg.profiles.get n := rfl
  have hqueue : (accept s cfg).cs.queue = [] := hempty
  have hstate (n : Out) : ((accept s cfg).ch n).state = if (cfg.profiles.get n).mode = .flipper then .flipper else .off := by
    rw [hch]
    rfl
  have howes (n : Out) : ((accept s cfg).ch n).repeats = 0 ∧ ((accept s cfg).ch n).train = none := by
    rw [hch]
    exact (hchan n).2
  have hzero (n : Out) : heldIn (accept s cfg) n = 0 := by
    refine heldIn_of_ne ?_
    rw [hstate]
    split <;> decide
  have hsum : (accept s cfg).holdSum = 0 := holdSum_of_zero hzero
  refine ⟨(queueSound_iff _).mpr ⟨?_, fun n => ?_, ?_, ?_⟩, flight_of_none hclaim ?_, fun n => ?_, hflippers,
    ⟨fun i _ => hrecords i (.inr hview), fun _ => hown (.inl hload)⟩, fun i _ => ?_,
    fun _ => ⟨hempty, hclaim, hidle, hgo, fun n => ⟨?_, howes n⟩⟩, fun hnone => ?_⟩
  · rw [hqueue]
    exact List.nodup_nil
  · rw [hstate, hqueue]
    split <;> simp
  · rw [hqueue]
    exact fun e he => absurd he List.not_mem_nil
  · rw [hqueue]
    exact List.Pairwise.nil
  · rw [hqueue]
    exact fun e he => absurd he List.not_mem_nil
  · have hclosed : ¬ Closed (accept s cfg) ((accept s cfg).prof n).cls := by
      rintro (hstop | ⟨hst, -⟩ | ⟨hst, -⟩)
      · exact absurd (hgo.symm.trans hstop) (by decide)
      · exact absurd (hidle.symm.trans hst) (by decide)
      · exact absurd (hidle.symm.trans hst) (by decide)
    refine (outputSound_iff _ n).mpr ⟨by rw [(howes n).1]; exact Nat.zero_le _, fun _ => ?_, fun hcs => ?_,
      fun _ => howes n, fun _ hshut => absurd hshut hclosed⟩
    · rw [hstate]
      split
      · exact .inr (.inl rfl)
      · exact .inl rfl
    · rw [hstate]
      split
      next hmode =>
        rw [hprof, hmode] at hcs
        cases hcs
      next => decide
  · exact (hrecords i (.inr hview)).trans hsum.symm
  · rw [hstate]
    split
    · exact .inr rfl
    · exact .inl rfl
  · have hjoin : (accept s cfg).viewing = true := rfl
    rw [hjoin] at hnone
    cases hnone

theorem coils_imageCheck (image : List Byte) : SoundTo (execImageCheck image s) := by
  unfold execImageCheck
  split
  case isFalse => exact soundTo_next h
  next hload =>
    dsimp only
    split
    · exact soundTo_next (coils_accept h hload _)
    · exact soundTo_next (coils_enterUnconfigured h (by simp [State.viewing, hload]) _ _)

/-- JOINING ends in RUN with nothing under way. -/
theorem coils_joiningEnd : SoundTo (execJoiningEnd s) := by
  refine soundTo_ite h fun ⟨hjoining, _⟩ => coils_announce ?_
  have hview : s.viewing = true := by simp [State.viewing, hjoining]
  obtain ⟨hqueue, hflight, houtputs, hflippers, ⟨hrecords, hown⟩, hstanding, -, -⟩ := h
  refine ⟨hqueue, hflight, houtputs, hflippers, ⟨fun i hi => hrecords i (.inl (hi.resolve_right nofun)),
    fun _ => hown (.inr (.inl hjoining))⟩, hstanding, fun hnot => absurd rfl hnot, nofun⟩

/-! ### Every command but the two resets, and time -/

theorem coils_exec (c : Instr) (hc : ¬ Resets c) : SoundTo (exec c s) := by
  cases c with
  | powerOnReset => exact absurd trivial hc
  | resetLineAssert => exact absurd trivial hc
  | resetLineRelease straps => exact soundTo_ite h fun ⟨hreset, _⟩ => coils_readStraps h hreset straps
  | imageCheck image => exact coils_imageCheck h image
  | joiningEnd => exact coils_joiningEnd h
  | unconfiguredStatus => exact soundTo_ite h fun _ => coils_handStatus h _
  | fire f => exact soundTo_next (coils_commandReceived h _ f)
  | hold f => exact soundTo_next (coils_commandReceived h _ f)
  | release f => exact soundTo_next (coils_commandReceived h _ f)
  | train f => exact soundTo_next (coils_commandReceived h _ f)
  | trainStop f => exact soundTo_next (coils_commandReceived h _ f)
  | lamp f => exact soundTo_next (coils_commandReceived h _ f)
  | clear f => exact soundTo_next (coils_commandReceived h _ f)
  | query f => exact soundTo_next (coils_commandReceived h _ f)
  | guardPassed n => exact coils_guardPassed h n
  | waitLimitExpiry n => exact coils_waitLimit h n
  | frameOffer =>
    refine soundTo_ite h fun _ => ?_
    rw [offerFrame_eq]
    exact coils_lc h _
  | arbitrationLost => exact coils_arbitrationLost h
  | ownFrameComplete =>
    show SoundTo (execOwnFrameComplete s)
    unfold execOwnFrameComplete
    split
    case h_2 => exact soundTo_next h
    split
    case h_2 => exact soundTo_next h
    exact soundTo_next (coils_ownHandedOn (coils_lc h _) _)
  | transmitError kind found => exact coils_transmitError h kind found
  | receiveError kind => exact soundTo_ite h fun _ => coils_lc h _
  | recoveryComplete => exact soundTo_ite h fun _ => coils_select (coils_announce (coils_lc h _))
  | stopPattern => exact coils_stopPattern h
  | stopPatternEnd => exact soundTo_next (coils_lc h _)
  | claimHeard f => exact coils_claimHeard h f
  | standingHeard f => exact coils_standingHeard h f
  | heardFrame kind f => exact soundTo_ite h fun _ => coils_received h f.source
  | beatReceived f sofPhase sofBeat => exact coils_beatReceived h f sofPhase sofBeat
  | tiltReceived f => exact soundTo_ite h fun _ => coils_playFrameTaken (coils_received h f.source) _ _
  | gameReceived f => exact soundTo_ite h fun _ => coils_playFrameTaken (coils_received h f.source) _ _
  | eventReceived f => exact soundTo_ite h fun _ => coils_routeEvent (coils_received h f.source) _ _
  | powerEnd n => exact coils_powerEnd h n
  | maxHoldExpiry n => exact coils_maxHoldExpiry h n
  | coolEnd n => exact coils_coolEnd h n
  | trainPulseEnd n => exact coils_trainPulseEnd h n
  | burstPulseStart n => exact coils_burstPulseStart h n
  | burstCoolEnd n => exact coils_burstCoolEnd h n
  | openCheckRequest n => exact coils_openCheckRequest h n
  | currentConversionEnd raw => exact coils_conversionEnd h raw
  | supplySlot => exact soundTo_ite h fun _ => coils_sc (coils_take h _) _
  | supplyReadingEnd raw => exact coils_supplyReadingEnd h raw
  | fastTrip n current => exact coils_fastTrip h n current
  | flipperTrip n current partner => exact coils_flipperTrip h n current partner
  | heatDecayPass => exact coils_heatDecayPass h
  | entryExpiry => exact coils_entryExpiry h
  | ageingOut station => exact coils_ageingOut h station
  | refreshExpiry => exact soundTo_ite h fun _ => coils_announce h
  | rawChange sw high => exact coils_rawChange h sw high
  | debounceEnd sw => exact coils_debounceEnd h sw
  | stuckEnd sw => exact soundTo_ite h fun _ => coils_of_eq h rfl rfl rfl rfl rfl rfl rfl rfl rfl
  | flipperWindowEnd f => exact soundTo_ite h fun hup => coils_flipHold h (by simp [hup.1])
  | flipperPowerEnd f => exact soundTo_ite h fun hup => coils_flipHold h (by simp [hup.1])
  | repowerEnd f => exact soundTo_ite h fun hup => coils_setFlip_up h (by simp [hup.1]) _
  | holdLimitEnd f => exact coils_holdLimitEnd h f
  | windowStart l => exact soundTo_ite h fun _ => coils_lp (coils_take h _) _
  | beatPhaseZero => exact coils_beatPhaseZero h
  | beatWithdraw => exact soundTo_ite h fun _ => coils_lc h _
  | integratingEnd => exact soundTo_ite h fun _ => coils_lc h _

theorem coils_linkBit : CoilsSound (linkBit s) := by
  have hbit : CoilsSound { s with bitDue := false, lines := { s.lines with linkIn := s.lines.linkIn.tail } } :=
    coils_of_eq h rfl rfl rfl rfl rfl rfl rfl rfl rfl
  have harisen {t : State} (ht : CoilsSound t) (cs : List Instr) : CoilsSound (queueArisen t cs) := by
    unfold queueArisen
    split <;> exact coils_of_eq ht rfl rfl rfl rfl rfl rfl rfl rfl rfl
  unfold linkBit
  dsimp only
  refine harisen (coils_lc ?_ _) _
  split
  · obtain ⟨lc, hlc, -⟩ := linkOnly_readBit
      { s with bitDue := false, lines := { s.lines with linkIn := s.lines.linkIn.tail } } (driveLevel s)
      (s.lines.wire.level (driveLevel s))
    rw [hlc]
    exact coils_lc hbit lc
  · exact hbit

theorem coils_passTime : CoilsSound (passTime s) := by
  unfold passTime
  extract_lets t
  have ht : CoilsSound t := by
    show CoilsSound (if _ then _ else _)
    split <;> exact coils_of_eq h rfl rfl rfl rfl rfl rfl rfl rfl rfl
  exact coils_of_eq ht rfl rfl rfl rfl rfl rfl rfl rfl rfl

theorem coils_takeDue (d : Option Instr) : CoilsSound (takeDue s d) := by
  cases d with
  | none => exact coils_linkBit h
  | some c => exact coils_of_eq h rfl rfl rfl rfl rfl rfl rfl rfl rfl

theorem coils_idle : CoilsSound (idle s) := by
  unfold idle
  split
  · exact coils_passTime h
  · exact coils_takeDue h _
  · exact coils_takeDue (coils_picks h _) _

end Commands

/-! ### Resets -/

theorem sum_zero_of_off {s : State} (h : ∀ n, (s.ch n).state = .off) : s.holdSum = 0 :=
  holdSum_of_zero fun n => heldIn_of_ne (by simp [h n])

theorem coilsSound_powerOn (s : State) (low : Bool) : CoilsSound (powerOn s low) := by
  have hch (n : Out) : (powerOn s low).ch n = Channel.reset := Bank.get_fill _ _
  have hoff (n : Out) : ((powerOn s low).ch n).state = .off := by
    rw [hch]
    rfl
  have howes (n : Out) : ((powerOn s low).ch n).repeats = 0 ∧ ((powerOn s low).ch n).train = none := by
    rw [hch]
    exact ⟨rfl, rfl⟩
  have hrecord (i : Fin 63) : ((powerOn s low).db.standing.get i).draw = 0 :=
    congrArg Standing.draw (Bank.get_fill i _)
  have hclosed (n : Out) : ¬ Closed (powerOn s low) ((powerOn s low).prof n).cls := by
    rintro (hstop | ⟨hst, -⟩ | ⟨hst, -⟩) <;> cases ‹_ = _›
  refine ⟨(queueSound_iff _).mpr ⟨List.nodup_nil, fun n => ?_, fun e he => absurd he List.not_mem_nil,
    List.Pairwise.nil⟩, flight_of_none rfl fun e he => absurd he List.not_mem_nil, fun n => ?_, fun _ f => ?_,
    ⟨fun i _ => hrecord i, nofun⟩, fun i _ => (hrecord i).trans (sum_zero_of_off hoff).symm,
    fun _ => ⟨rfl, rfl, rfl, rfl, fun n => ⟨.inl (hoff n), howes n⟩⟩, fun _ => rfl⟩
  · rw [hoff]
    exact ⟨nofun, fun ⟨e, he, _⟩ => absurd he List.not_mem_nil⟩
  · refine (outputSound_iff _ n).mpr ⟨by rw [(howes n).1]; exact Nat.zero_le _, fun _ => .inl (hoff n),
      fun _ => by simp [hoff], fun _ => howes n, fun _ hshut => absurd hshut (hclosed n)⟩
  · exact congrArg Flipper.state (Bank.get_fill f _)

/-- An assertion of the reset line leaves what a power-on reset does, but heat and the link's drive. -/
theorem alike_lineReset (s : State) : Alike (powerOn s true) (lineReset s) := by
  refine ⟨rfl, rfl, rfl, fun n => ?_, rfl, rfl, fun _ => ⟨rfl, id⟩, fun _ => rfl, rfl, rfl⟩
  rw [show (lineReset s).ch n = _ from Bank.get_mapIdx _ _ _,
    show (powerOn s true).ch n = Channel.reset from Bank.get_fill _ _]
  exact ⟨rfl, rfl, rfl, rfl⟩

/-- Settles O4: in RUN each operation of the coil sequencer keeps queue, claim, outputs and records together; outside
it nothing is under way. -/
theorem everyStepKeepsTheCoilsSound : Obligations.EveryStepKeepsTheCoilsSound := by
  intro s t h hstep
  unfold step at hstep
  split at hstep
  next c rest _ =>
    have hpop : CoilsSound { s with pending := rest } := coils_of_eq h rfl rfl rfl rfl rfl rfl rfl rfl rfl
    by_cases hreset : Resets c
    · cases c with
      | powerOnReset high straps =>
        unfold exec execPowerOnReset at hstep
        dsimp only at hstep
        split at hstep
        · obtain rfl := Host.Outcome.next.inj hstep
          exact coils_readStraps (coilsSound_powerOn _ false) rfl straps
        · obtain rfl := Host.Outcome.next.inj hstep
          exact coilsSound_powerOn _ true
      | resetLineAssert =>
        obtain rfl := Host.Outcome.next.inj hstep
        exact (alike_lineReset _).coils (coilsSound_powerOn _ true)
      | _ => exact absurd hreset id
    · exact coils_exec hpop c hreset t hstep
  next =>
    obtain rfl := Host.Outcome.next.inj hstep
    exact coils_idle h

/-- Settles O2: a power-on reset leaves what the three invariants say. -/
theorem invariantsHoldAtReset : Obligations.InvariantsHoldAtReset :=
  ⟨bounded_powerOn State.reset true, coilsSound_powerOn State.reset true, slotsSound_powerOn State.reset true⟩

end Sys2Proof.Proofs
end

section
/-! The statements' words for own frames and for play control tied to the model: the link controller after an own
frame, and the play state with all that a change of it ends. -/

namespace Sys2Proof.Proofs
open Sys2Proof.Machine

/-! ### The outgoing queue moved up (R149) -/

theorem refill_eq_advanced (lc : Link) : lc.refill = advanced lc := by
  unfold Link.refill Link.fill advanced Link.place
  have h32 (x : Option Slot) : (lc.slots.set 2 x).get 3 = lc.slots.get 3 := Bank.get_set_ne _ _ (by decide)
  cases h2 : lc.slots.get 2 <;> cases h3 : lc.slots.get 3 <;>
    rcases hq : lc.outq with _ | ⟨f, _ | ⟨g, rest⟩⟩ <;> simp [h3, hq, h32]

/-- The queue moved up leaves everything else of the link controller. -/
theorem advanced_frame (lc : Link) :
    advanced lc = { lc with slots := (advanced lc).slots, outq := (advanced lc).outq } := by
  unfold advanced
  repeat' split
  all_goals rfl

/-- What is moved up is decided by slots and queue alone. -/
theorem advanced_congr {lc lc' : Link} (hslots : lc'.slots = lc.slots) (hqueue : lc'.outq = lc.outq) :
    (advanced lc').slots = (advanced lc).slots ∧ (advanced lc').outq = (advanced lc).outq := by
  unfold advanced
  rw [hslots, hqueue]
  repeat' split
  all_goals simp [hslots, hqueue]

theorem emptied_eq (lc : Link) (i : Fin 4) : lc.emptied i =
    if 2 ≤ i.val then advanced { lc with slots := lc.slots.set i none }
    else { lc with slots := lc.slots.set i none } := by
  unfold Link.emptied
  by_cases hi : i.val < 2
  · rw [if_pos hi, if_neg (by omega)]
    rfl
  · rw [if_neg hi, if_pos (by omega), refill_eq_advanced]
    rfl

theorem emptied_frame (lc : Link) (i : Fin 4) :
    lc.emptied i = { lc with slots := (lc.emptied i).slots, outq := (lc.emptied i).outq } := by
  rw [emptied_eq]
  split
  · exact advanced_frame _
  · rfl

/-- The link controller after an own frame completed, of a station that is not SILENT (R151, R155). -/
theorem completed_eq_sentBy {lc : Link} (h : lc.state ≠ .silent) (i : Fin 4) :
    (lc.emptied i).frameOver.countTransmit = sentBy lc i := by
  have hstate : (lc.emptied i).frameOver.state = lc.state := by rw [emptied_frame]; rfl
  have htec : (lc.emptied i).frameOver.TEC = lc.TEC := by rw [emptied_frame]; rfl
  have hrec : (lc.emptied i).frameOver.REC = lc.REC := by rw [emptied_frame]; rfl
  unfold Link.countTransmit sentBy
  dsimp only
  rw [hstate, if_neg h, ← emptied_eq, Link.withCounts, hstate, htec, hrec, decideLink_eq,
    show (lc.emptied i).REC = lc.REC from hrec]
  rfl

/-- An own frame of slot i completes. -/
theorem exec_ownFrameComplete {s : State} {i : Fin 4} {f : Frame} {fails : Nat} (h : Pre.onWire s i f fails)
    (hstate : s.lc.state ≠ .silent) :
    exec .ownFrameComplete s = .next (ownHandedOn { s with lc := sentBy s.lc i } f) := by
  obtain ⟨hwire, hslot⟩ := h
  show execOwnFrameComplete s = _
  unfold execOwnFrameComplete
  rw [hwire]
  dsimp only
  rw [hslot]
  dsimp only
  rw [completed_eq_sentBy hstate]

/-! ### TILT and GAME frames (R171, Table 12-2) -/

/-- The kind and code that carry a play change. -/
def playCode : PlayFrame → BitVec 5 × Byte
  | .tilt => (1, 1)
  | .slam => (1, 2)
  | .start => (2, 1)
  | .over => (2, 2)

theorem playFrameOf_eq_some_iff {kind : BitVec 5} {payload : List Byte} {k : PlayFrame} :
    playFrameOf kind payload = some k ↔ payload.head? = some (playCode k).2 ∧ kind = (playCode k).1 := by
  cases payload with
  | nil => simp [playFrameOf]
  | cons b rest =>
    simp only [playFrameOf, List.head?_cons, Option.some.injEq]
    by_cases h1 : kind = 1#5
    · subst h1
      by_cases hb1 : b = 1#8
      · cases k <;> simp [playCode, hb1]
      · by_cases hb2 : b = 2#8 <;> cases k <;> simp [playCode, hb1, hb2]
    · by_cases h2 : kind = 2#5
      · subst h2
        by_cases hb1 : b = 1#8
        · cases k <;> simp [playCode, hb1]
        · by_cases hb2 : b = 2#8 <;> cases k <;> simp [playCode, hb1, hb2]
      · cases k <;> simp [playCode, h1, h2]

/-- A code of Table 12-2 in a TILT or GAME frame is a play change. -/
theorem playFrameOf_of_assigned {kind : BitVec 5} {payload : List Byte} {code : Byte} (hkind : kind = 1 ∨ kind = 2)
    (h : Assigned payload code) : ∃ k, playFrameOf kind payload = some k ∧ playCode k = (kind, code) := by
  obtain ⟨hhead, hcode⟩ := h
  have hof (k : PlayFrame) (hk : playCode k = (kind, code)) : ∃ k, playFrameOf kind payload = some k ∧
      playCode k = (kind, code) := ⟨k, playFrameOf_eq_some_iff.mpr (by simp [hk, hhead]), hk⟩
  obtain rfl | rfl := hkind <;> obtain rfl | rfl := hcode
  · exact hof .tilt rfl
  · exact hof .slam rfl
  · exact hof .start rfl
  · exact hof .over rfl

theorem playFrameOf_of_unassigned (kind : BitVec 5) {payload : List Byte} (h : ∀ code, ¬ Assigned payload code) :
    playFrameOf kind payload = none := by
  cases hplay : playFrameOf kind payload with
  | none => rfl
  | some k =>
    obtain ⟨hhead, -⟩ := playFrameOf_eq_some_iff.mp hplay
    refine absurd ⟨hhead, ?_⟩ (h _)
    cases k
    · exact .inl rfl
    · exact .inr rfl
    · exact .inl rfl
    · exact .inr rfl

theorem playFrameOf_of_kind {kind : BitVec 5} (h1 : kind ≠ 1) (h2 : kind ≠ 2) (payload : List Byte) :
    playFrameOf kind payload = none := by
  cases payload with
  | nil => rfl
  | cons b rest => exact (if_neg h1).trans (if_neg h2)

theorem playAfter_playCode (k : PlayFrame) (p : PlayState) :
    playAfter (playCode k).1 (playCode k).2 p = k.next p := by
  cases k <;> cases p <;> rfl

theorem stopped_playCode (k : PlayFrame) (b : Bool) :
    (if (playCode k).1 = 2 then false else b) = k.stopped b := by
  cases k <;> rfl

/-! ### Outputs newly disabled (R173) -/

theorem newlyGated_iff (s : State) (new : PlayState) (n : Out) :
    newlyGated s.cfg s.pc.state new n = true ↔ Gated s new n := by
  have hcls : ∀ cls : Nat, (classDisabled new cls = true ∧ ¬ classDisabled s.pc.state cls = true) ↔
      (s.pc.state ≠ .tilt ∧ s.pc.state ≠ .slam ∧ cls ≤ 1 ∧ (new = .tilt ∨ new = .slam) ∨
        s.pc.state ≠ .slam ∧ cls = 2 ∧ new = .slam) := by
    intro cls
    rw [classDisabled_iff, classDisabled_iff]
    unfold ClassOff
    cases s.pc.state <;> cases new <;> simp <;> omega
  unfold newlyGated
  simp only [Bool.and_eq_true, Bool.not_eq_true', ← Bool.not_eq_true, and_assoc]
  exact and_congr Iff.rfl (hcls _)

/-- One output's work ended. -/
theorem gateOutput_eq (s : State) (n : Out) :
    gateOutput s n =
      if (s.ch n).state = .queued then withChan (unqueued s n) n (gatedChan s n (s.ch n))
      else withChan s n (gatedChan s n (s.ch n)) := by
  have hcut : (if (s.prof n).cool = 0 then toOff (s.updCh n Channel.dropWork) n
      else toCool (s.updCh n Channel.dropWork) n) =
        withChan s n { (if (s.prof n).cool = 0 then offed (s.ch n) else cooled s.tick (s.prof n).cool (s.ch n)) with
          repeats := 0, holdWanted := false, train := none } := by
    split
    · rw [toOff, updCh_updCh]
      rfl
    · rw [toCool, updCh_updCh]
      rfl
  unfold gateOutput gatedChan
  dsimp only
  rw [hcut]
  cases hstate : (s.ch n).state with
  | queued =>
    rw [if_pos rfl]
    dsimp only
    rw [toOff, updCh_dequeue, updCh_updCh, dequeue_eq, updCh_eq_withChan, unqueued_withChan]
    rfl
  | power => simp
  | hold => simp
  | gap => simp
  | off => simp; rfl
  | cool => simp; rfl
  | fault => simp; rfl
  | flipper => simp; rfl

end Sys2Proof.Proofs
end

section
/-! A change of the play state, with all that it ends: PC's handling of a TILT or GAME frame is what `playMoved`
says. -/

namespace Sys2Proof.Proofs
open Sys2Proof.Machine

/-! ### The claim in flight (R63) -/

/-- A withdrawal reads claim and slot 0 alone. -/
theorem withdrawnFor_with (s : State) (n : Out) (cs : Coils) (pc : Play) :
    withdrawnFor { s with cs := cs, pc := pc } n = { withdrawnFor s n with cs := cs, pc := pc } := by
  unfold withdrawnFor
  cases s.db.claim with
  | none => rfl
  | some c =>
    dsimp only
    split
    · cases s.lc.slots.get 0 with
      | none => rfl
      | some sl =>
        obtain ⟨frame, onWire, fails⟩ := sl
        cases onWire <;> rfl
    · rfl

/-- The claim that a withdrawal leaves, if any, is for the same output. -/
theorem withdrawnFor_output {s : State} {n : Out} {c c' : Claim} (hc : s.db.claim = some c)
    (h : (withdrawnFor s n).db.claim = some c') : c'.output = c.output := by
  have hkept (x : Claim) (hx : some x = some c') (hout : x.output = c.output) : c'.output = c.output := by
    obtain rfl := Option.some.inj hx
    exact hout
  unfold withdrawnFor at h
  rw [hc] at h
  dsimp only at h
  split at h
  · split at h
    · exact hkept _ h rfl
    · cases h
    · cases h
  · rw [hc] at h
    exact hkept _ h rfl

theorem withdrawnFor_of_ne {s : State} {n : Out} (h : ∀ c, s.db.claim = some c → c.output ≠ n) :
    withdrawnFor s n = s := by
  unfold withdrawnFor
  cases hc : s.db.claim with
  | none => rfl
  | some c => exact if_neg (h c hc)

/-! ### The outputs of a list gated one after the other (R173) -/

/-- The coils with the outputs of `l` that `P` names gated. -/
def gatedCs (s : State) (P : Out → Bool) (l : List Out) : Coils :=
  { s.cs with
    queue := s.cs.queue.filter fun e =>
      ¬ (e.output ∈ l ∧ P e.output = true ∧ (s.ch e.output).state = .queued)
    chan := s.cs.chan.mapIdx fun n c => if n ∈ l ∧ P n = true then gatedChan s n c else c }

/-- The station with the claim in flight withdrawn where its output is gated in QUEUED. -/
def gatedClaim (s : State) (P : Out → Bool) (l : List Out) : State :=
  match s.db.claim with
  | some c =>
    if c.output ∈ l ∧ P c.output = true ∧ (s.ch c.output).state = .queued then withdrawnFor s c.output else s
  | none => s

/-- Both together. -/
def gatedBy (s : State) (P : Out → Bool) (l : List Out) : State :=
  { gatedClaim s P l with cs := gatedCs s P l }

theorem coilWork_withdrawnFor (s : State) (n : Out) : CoilWork s (withdrawnFor s n) := by
  rw [← withdrawClaim_eq]
  exact coilWork_withdrawClaim s n

theorem withdrawnFor_withCs (s : State) (n : Out) (cs : Coils) :
    withdrawnFor { s with cs := cs } n = { withdrawnFor s n with cs := cs } := by
  have hpc : (withdrawnFor s n).pc = s.pc := by rw [coilWork_withdrawnFor]
  refine (withdrawnFor_with s n cs s.pc).trans ?_
  rw [← hpc]

theorem coilWork_gatedBy (s : State) (P : Out → Bool) (l : List Out) : CoilWork s (gatedBy s P l) := by
  have hclaim : CoilWork s (gatedClaim s P l) := by
    unfold gatedClaim
    split
    · split
      · exact coilWork_withdrawnFor s _
      · exact .refl s
    · exact .refl s
  exact hclaim.trans (coilWork_cs _ _)

theorem gatedBy_nil (s : State) (P : Out → Bool) : gatedBy s P [] = s := by
  have hclaim : gatedClaim s P [] = s := by
    unfold gatedClaim
    split
    · exact if_neg fun h => absurd h.1 List.not_mem_nil
    · rfl
  have hcs : gatedCs s P [] = s.cs := by
    have hchan : s.cs.chan.mapIdx (fun n c => if n ∈ [] ∧ P n = true then gatedChan s n c else c) = s.cs.chan := by
      apply Bank.ext_get
      intro n
      rw [Bank.get_mapIdx, if_neg fun h => absurd h.1 List.not_mem_nil]
    unfold gatedCs
    rw [hchan, List.filter_eq_self.mpr (by simp)]
  unfold gatedBy
  rw [hclaim, hcs]

section Last

variable {s : State} {P : Out → Bool} {l : List Out} {n : Out}

theorem gatedBy_ch (m : Out) :
    (gatedBy s P l).ch m = if m ∈ l ∧ P m = true then gatedChan s m (s.ch m) else s.ch m :=
  Bank.get_mapIdx _ _ _

theorem gatedCs_chan_append (hn : P n = true) (hnew : n ∉ l) :
    (gatedCs s P (l ++ [n])).chan = (gatedCs s P l).chan.set n (gatedChan s n (s.ch n)) := by
  apply Bank.ext_get
  intro m
  rw [Bank.get_set]
  show (s.cs.chan.mapIdx _).get m = if m = n then _ else (s.cs.chan.mapIdx _).get m
  rw [Bank.get_mapIdx, Bank.get_mapIdx]
  by_cases hm : m = n
  · subst hm
    rw [if_pos ⟨by simp, hn⟩, if_pos rfl]
    rfl
  · rw [if_neg hm]
    simp only [List.mem_append, List.mem_singleton, hm, or_false]

theorem gatedCs_queue_append (hn : P n = true) :
    (gatedCs s P (l ++ [n])).queue =
      if (s.ch n).state = .queued then (gatedCs s P l).queue.filter (·.output ≠ n) else (gatedCs s P l).queue := by
  show s.cs.queue.filter _ = _
  split
  next hqueued =>
    show _ = (s.cs.queue.filter _).filter _
    rw [List.filter_filter]
    refine List.filter_congr fun e _ => ?_
    by_cases he : e.output = n
    · simp [he, hn, hqueued]
    · simp [he]
  next hqueued =>
    refine List.filter_congr fun e _ => ?_
    by_cases he : e.output = n
    · simp [he, hqueued]
    · simp [he]

theorem gatedClaim_append (hn : P n = true) (hnew : n ∉ l) :
    gatedClaim s P (l ++ [n]) =
      if (s.ch n).state = .queued then withdrawnFor (gatedClaim s P l) n else gatedClaim s P l := by
  unfold gatedClaim
  cases hc : s.db.claim with
  | none =>
    dsimp only
    rw [withdrawnFor_of_ne (fun c h => by rw [hc] at h; cases h), ite_self]
  | some c =>
    dsimp only
    by_cases hout : c.output = n
    · rw [if_neg (fun h : c.output ∈ l ∧ _ => hnew (hout ▸ h.1)), hout]
      simp [hn]
    · have hmem : c.output ∈ l ++ [n] ↔ c.output ∈ l := by simp [hout]
      simp only [hmem]
      have hother (t : State) (ht : ∀ c', t.db.claim = some c' → c'.output = c.output) : withdrawnFor t n = t :=
        withdrawnFor_of_ne fun c' hc' => by rw [ht c' hc']; exact hout
      split
      · rw [hother _ fun c' hc' => withdrawnFor_output hc hc', ite_self]
      · rw [hother _ fun c' hc' => by rw [hc] at hc'; rw [Option.some.inj hc'], ite_self]

/-- One more output gated. -/
theorem gatedBy_append (hn : P n = true) (hnew : n ∉ l) : gateOutput (gatedBy s P l) n = gatedBy s P (l ++ [n]) := by
  have hch : (gatedBy s P l).ch n = s.ch n := by rw [gatedBy_ch, if_neg fun h => hnew h.1]
  have hwork := coilWork_gatedBy s P l
  have hgated (c : Channel) : gatedChan (gatedBy s P l) n c = gatedChan s n c := by
    unfold gatedChan
    rw [hwork.prof, hwork.tick]
  rw [gateOutput_eq, hch, hgated]
  have hqueue := gatedCs_queue_append (s := s) (l := l) hn
  have hclaim := gatedClaim_append (s := s) hn hnew
  have hchan := gatedCs_chan_append (s := s) hn hnew
  have hcs : gatedCs s P (l ++ [n]) =
      { gatedCs s P l with
        queue := (gatedCs s P (l ++ [n])).queue, chan := (gatedCs s P (l ++ [n])).chan } := rfl
  split
  next hqueued =>
    rw [if_pos hqueued] at hqueue hclaim
    unfold gatedBy unqueued
    rw [hclaim, hcs, hqueue, hchan]
    exact congrArg (fun t => withChan t n (gatedChan s n (s.ch n))) (withdrawnFor_withCs (gatedClaim s P l) n _)
  next hqueued =>
    rw [if_neg hqueued] at hqueue hclaim
    unfold gatedBy
    rw [hclaim, hcs, hqueue, hchan]
    rfl

/-- An output that is not named is left as it is. -/
theorem gatedBy_append_of_not (hn : ¬ P n = true) : gatedBy s P (l ++ [n]) = gatedBy s P l := by
  have hiff (m : Out) : m ∈ l ++ [n] ∧ P m = true ↔ m ∈ l ∧ P m = true := by
    rw [List.mem_append, List.mem_singleton]
    refine ⟨fun ⟨hm, hp⟩ => ⟨hm.resolve_right ?_, hp⟩, fun ⟨hm, hp⟩ => ⟨.inl hm, hp⟩⟩
    rintro rfl
    exact hn hp
  unfold gatedBy gatedClaim gatedCs
  simp only [← and_assoc, hiff]

end Last

/-- The fold of the model, output by output. -/
theorem foldl_gateOutput (s : State) (P : Out → Bool) (l : List Out) (hl : l.Nodup) :
    l.foldl (fun t n => if P n then gateOutput t n else t) s = gatedBy s P l := by
  obtain ⟨m, rfl⟩ : ∃ m : List Out, l = m.reverse := ⟨l.reverse, l.reverse_reverse.symm⟩
  induction m with
  | nil => exact (gatedBy_nil s P).symm
  | cons n m ih =>
    rw [List.reverse_cons] at hl ⊢
    obtain ⟨hl', -, hdisjoint⟩ := List.nodup_append.mp hl
    have hnew : n ∉ m.reverse := fun hn => hdisjoint n hn n List.mem_cons_self rfl
    rw [List.foldl_append, ih hl']
    show (if P n then gateOutput (gatedBy s P m.reverse) n else gatedBy s P m.reverse) = _
    split
    next hn => exact gatedBy_append hn hnew
    next hn => exact (gatedBy_append_of_not hn).symm

theorem foldl_newlyGated (old new : PlayState) (l : List Out) : ∀ s : State,
    l.foldl (fun s n => if newlyGated s.cfg old new n then gateOutput s n else s) s =
      l.foldl (fun t n => if newlyGated s.cfg old new n then gateOutput t n else t) s := by
  induction l with
  | nil => exact fun _ => rfl
  | cons n rest ih =>
    intro s
    rw [List.foldl_cons, List.foldl_cons, ih]
    split
    next => rw [coilWork_gateOutput s n]
    next => rfl

/-- All outputs gated: what `gatedOff` says, whatever play control has been set to meanwhile. -/
theorem gatedBy_eq_gatedOff (s : State) (new : PlayState) (pc : Play) :
    gatedBy { s with pc := pc } (newlyGated s.cfg s.pc.state new) (List.finRange 16) =
      { gatedOff s new with pc := pc } := by
  have hgated (n : Out) : n ∈ List.finRange 16 ∧ newlyGated s.cfg s.pc.state new n = true ↔ Gated s new n := by
    rw [newlyGated_iff]
    simp [List.mem_finRange]
  have hentry (n : Out) : n ∈ List.finRange 16 ∧ newlyGated s.cfg s.pc.state new n = true ∧
      (State.ch { s with pc := pc } n).state = .queued ↔ GatedEntry s new n := by
    rw [← and_assoc, hgated]
    exact Iff.rfl
  have hcs : gatedCs { s with pc := pc } (newlyGated s.cfg s.pc.state new) (List.finRange 16) =
      { s.cs with
        queue := s.cs.queue.filter fun e => ¬ GatedEntry s new e.output
        chan := s.cs.chan.mapIdx fun n c => if Gated s new n then gatedChan s n c else c } := by
    unfold gatedCs
    simp only [hgated, hentry]
    rfl
  unfold gatedBy gatedClaim gatedOff
  rw [hcs]
  cases hc : s.db.claim with
  | none => rfl
  | some c =>
    dsimp only
    by_cases he : GatedEntry s new c.output
    · rw [if_pos he, if_pos ((hentry _).mpr he)]
      have hleft := withdrawnFor_with s c.output s.cs pc
      have hright := withdrawnFor_with s c.output { s.cs with
        queue := s.cs.queue.filter fun e => ¬ GatedEntry s new e.output
        chan := s.cs.chan.mapIdx fun n c => if Gated s new n then gatedChan s n c else c } s.pc
      rw [hleft, hright]
    · rw [if_neg he, if_neg fun h => he ((hentry _).mp h)]

/-! ### What a change of the play state comes to -/

theorem restFlippers_eq (s : State) : restFlippers s = rested s := rfl

theorem darken_eq (s : State) : darkenTiltGroup s = darkened s := rfl

theorem dark_iff (p : PlayState) : p.dark = true ↔ p = .tilt ∨ p = .slam := by
  cases p <;> simp [PlayState.dark]

theorem gatedOff_pc (s : State) (new : PlayState) : (gatedOff s new).pc = s.pc := by
  unfold gatedOff
  dsimp only
  split
  · split
    · rw [coilWork_withdrawnFor]
    · rfl
  · rfl

theorem gateOutputs_eq {s : State} {i : Fin 63} (hown : Pre.number s.own i) (new : PlayState) (pc : Play) :
    gateOutputs { s with pc := pc } s.pc.state new = restood { gatedOff s new with pc := pc } i := by
  have hfold : gateOutputs { s with pc := pc } s.pc.state new =
      updateStanding (gatedBy { s with pc := pc } (newlyGated s.cfg s.pc.state new) (List.finRange 16)) := by
    unfold gateOutputs
    rw [foldl_newlyGated, foldl_gateOutput _ _ _ (List.nodup_finRange 16)]
  have hwork := coilWork_gatedBy { s with pc := pc } (newlyGated s.cfg s.pc.state new) (List.finRange 16)
  rw [gatedBy_eq_gatedOff] at hfold hwork
  rw [hfold]
  exact updateStanding_eq _ (by rw [hwork.own]; exact hown)

/-- The play state set, with what `playMoved` says of the state and the stopped flag. -/
theorem gatedOff_playSet (s : State) (k : PlayFrame) (new : PlayState) (hnew : k.next s.pc.state = new) :
    { gatedOff s new with pc := { (gatedOff s new).pc with
      state := new, stopped := if (playCode k).1 = 2 then false else s.pc.stopped } } =
        { gatedOff s new with pc := (playSet s k).pc } := by
  rw [gatedOff_pc, stopped_playCode, ← hnew]
  rfl

/-- The play state is another: outputs, flippers and lamps follow. -/
theorem playEffects_playSet {s : State} {i : Fin 63} (hown : Pre.number s.own i) (k : PlayFrame) (new : PlayState) :
    playEffects (playSet s k) s.pc.state new =
      (if new = .tilt ∨ new = .slam then
        darkened (if new = .play then restood { gatedOff s new with pc := (playSet s k).pc } i
          else rested (restood { gatedOff s new with pc := (playSet s k).pc } i))
      else if new = .play then restood { gatedOff s new with pc := (playSet s k).pc } i
        else rested (restood { gatedOff s new with pc := (playSet s k).pc } i)) := by
  have hgate : gateOutputs (playSet s k) s.pc.state new = _ := gateOutputs_eq hown new (playSet s k).pc
  unfold playEffects
  rw [hgate]
  generalize restood _ i = t
  simp only [dark_iff, restFlippers_eq, darken_eq]

/-- PC takes a TILT or GAME frame in RUN: what `playMoved` says. -/
theorem playChange_eq {s : State} {i : Fin 63} (hrun : s.sl.station = .run) (hown : Pre.number s.own i)
    (k : PlayFrame) : playChange s k = playMoved s i (playCode k).1 (playCode k).2 := by
  rw [playChange_of_run hrun]
  unfold playMoved
  dsimp only
  rw [playAfter_playCode]
  by_cases hsame : k.next s.pc.state = s.pc.state
  · rw [if_pos hsame, if_pos hsame]
    have hset : playSet s k = { s with pc := { s.pc with
        state := k.next s.pc.state
        stopped := if (playCode k).1 = 2 then false else s.pc.stopped } } := by
      rw [stopped_playCode]
      rfl
    have hstopped : k.stopped s.pc.stopped = s.pc.stopped ↔ ¬ ((playCode k).1 = 2 ∧ s.pc.stopped = true) := by
      cases k <;> cases s.pc.stopped <;> simp [PlayFrame.stopped, playCode]
    by_cases hstop : (playCode k).1 = 2 ∧ s.pc.stopped = true
    · rw [if_pos hstop, if_neg fun h => (hstopped.mp h) hstop, hset]
    · rw [if_neg hstop, if_pos (hstopped.mpr hstop), hset]
  · rw [if_neg hsame, if_neg hsame, playEffects_playSet hown, gatedOff_playSet s k _ rfl]

theorem playFrameTaken_eq {s : State} {i : Fin 63} {kind : BitVec 5} {payload : List Byte} {code : Byte}
    (hkind : kind = 1 ∨ kind = 2) (h : Assigned payload code) (hrun : s.sl.station = .run)
    (hown : Pre.number s.own i) : playFrameTaken s kind payload = playMoved s i kind code := by
  obtain ⟨k, hplay, hcode⟩ := playFrameOf_of_assigned hkind h
  unfold playFrameTaken
  rw [hplay]
  dsimp only
  rw [playChange_eq hrun hown, hcode]

/-- Outside RUN, or with a code not assigned, nothing is taken. -/
theorem playFrameTaken_of_not {s : State} (kind : BitVec 5) {payload : List Byte}
    (h : s.sl.station ≠ .run ∨ ∀ code, ¬ Assigned payload code) : playFrameTaken s kind payload = s := by
  unfold playFrameTaken
  split
  next k hplay =>
    refine if_neg fun hrun => ?_
    rw [playFrameOf_of_unassigned kind (h.resolve_left fun hnot => hnot hrun)] at hplay
    cases hplay
  next => rfl

/-- Settles O47: a heard TILT or GAME frame is taken as `playMoved` says, in RUN with a code assigned. -/
theorem playFramesMoveThePlayState : Obligations.PlayFramesMoveThePlayState := by
  have htilt (s : State) (f : Heard) (h : s.canReceive = true) :
      exec (.tiltReceived f) s = .next (playFrameTaken (heard s f) 1 f.payload) := if_pos h
  have hgame (s : State) (f : Heard) (h : s.canReceive = true) :
      exec (.gameReceived f) s = .next (playFrameTaken (heard s f) 2 f.payload) := if_pos h
  refine ⟨?tilt, ?game, ?neither⟩
  case tilt =>
    intro s f code i ⟨hrx, hrun, hcode, hown⟩
    rw [htilt s f hrx, playFrameTaken_eq (.inl rfl) hcode (by rw [received_sl]; exact hrun)
      (by rw [received_own]; exact hown)]
  case game =>
    intro s f code i ⟨hrx, hrun, hcode, hown⟩
    rw [hgame s f hrx, playFrameTaken_eq (.inr rfl) hcode (by rw [received_sl]; exact hrun)
      (by rw [received_own]; exact hown)]
  case neither =>
    intro s f hrx h
    have hnot : (heard s f).sl.station ≠ .run ∨ ∀ code, ¬ Assigned f.payload code := by rwa [received_sl]
    exact ⟨by rw [htilt s f hrx, playFrameTaken_of_not _ hnot], by rw [hgame s f hrx, playFrameTaken_of_not _ hnot]⟩

end Sys2Proof.Proofs
end

section
/-! Events and actions: the filters read as `listNames` and `maskNames`, EVENT frames routed as `Routed` says, the
table stop, frames handed to LC, and what an action does (O48, O49). -/

namespace Sys2Proof.Proofs
open Sys2Proof.Machine

/-! ### Filters and keys (R164–R166) -/

/-- The first number whose record answers is the one a search of the bank's records ends at. -/
theorem findSome_items {α β : Type} {n : Nat} {b : Bank α n} {f : α → Option β} {i : Fin n} {x : β}
    (hi : f (b.get i) = some x) (hbefore : ∀ j, j < i → f (b.get j) = none) : b.items.findSome? f = some x := by
  rw [items_eq_map_get, List.findSome?_map, List.findSome?_eq_some_iff]
  have hlen : i.val < (List.finRange n).length := by simp
  refine ⟨(List.finRange n).take i, i, (List.finRange n).drop (i + 1), ?_, hi, fun j hj => ?_⟩
  · have hsplit := List.take_append_drop i.val (List.finRange n)
    rw [List.drop_eq_getElem_cons hlen, List.getElem_finRange] at hsplit
    exact hsplit.symm
  · obtain ⟨k, hk, hget⟩ := List.mem_take_iff_getElem.mp hj
    rw [List.getElem_finRange] at hget
    refine hbefore j ?_
    subst hget
    simp only [Fin.lt_def, Fin.val_cast]
    omega

theorem findSome_items_none {α β : Type} {n : Nat} {b : Bank α n} {f : α → Option β}
    (h : ∀ j, f (b.get j) = none) : b.items.findSome? f = none := by
  rw [items_eq_map_get, List.findSome?_map, List.findSome?_eq_none_iff]
  exact fun j _ => h j

theorem listNames_list_iff (key v w : BitVec 16) (a x y : Fin 32) :
    listNames key a (.list v x w y) ↔ key = v ∧ a = x ∨ key ≠ v ∧ key = w ∧ a = y := by
  constructor
  · rintro ⟨_, _, _, _, hlist, hnames⟩
    cases hlist
    exact hnames
  · exact fun hnames => ⟨v, x, w, y, rfl, hnames⟩

theorem listMatch_iff (key : BitVec 16) (g : Filter) (a : Fin 32) :
    g.listMatch key = some a ↔ listNames key a g := by
  cases g with
  | list v x w y =>
    rw [listNames_list_iff]
    show (if key = v then some x else if key = w then some y else none) = some a ↔ _
    by_cases hv : key = v
    · rw [if_pos hv, Option.some.injEq, eq_comm]
      exact ⟨fun ha => .inl ⟨hv, ha⟩, fun h => h.elim And.right fun hsecond => absurd hv hsecond.1⟩
    · rw [if_neg hv]
      by_cases hw : key = w
      · rw [if_pos hw, Option.some.injEq, eq_comm]
        exact ⟨fun ha => .inr ⟨hv, hw, ha⟩, fun h => h.elim (fun hfirst => absurd hfirst.1 hv) fun hsecond =>
          hsecond.2.2⟩
      · rw [if_neg hw]
        exact ⟨nofun, fun h => h.elim (fun hfirst => absurd hfirst.1 hv) fun hsecond => absurd hsecond.2.1 hw⟩
  | disabled => exact ⟨nofun, nofun⟩
  | mask v m x => exact ⟨nofun, nofun⟩

theorem maskNames_mask_iff (key v m : BitVec 16) (a x : Fin 32) :
    maskNames key a (.mask v m x) ↔ a = x ∧ key &&& m = v &&& m := by
  constructor
  · rintro ⟨_, _, hmask, hnames⟩
    cases hmask
    exact ⟨rfl, hnames⟩
  · rintro ⟨rfl, hnames⟩
    exact ⟨v, m, rfl, hnames⟩

theorem maskMatch_iff (key : BitVec 16) (g : Filter) (a : Fin 32) :
    g.maskMatch key = some a ↔ maskNames key a g := by
  cases g with
  | mask v m x =>
    rw [maskNames_mask_iff]
    show (if key &&& m = v &&& m then some x else none) = some a ↔ _
    by_cases hv : key &&& m = v &&& m
    · rw [if_pos hv, Option.some.injEq, eq_comm, and_iff_left hv]
    · rw [if_neg hv]
      exact ⟨nofun, fun hnames => absurd hnames.2 hv⟩
  | disabled => exact ⟨nofun, nofun⟩
  | list v x w y => exact ⟨nofun, nofun⟩

theorem listMatch_eq_none {key : BitVec 16} {g : Filter} (h : ∀ a, ¬ listNames key a g) : g.listMatch key = none :=
  Option.eq_none_iff_forall_ne_some.mpr fun a ha => h a ((listMatch_iff key g a).mp ha)

theorem maskMatch_eq_none {key : BitVec 16} {g : Filter} (h : ∀ a, ¬ maskNames key a g) : g.maskMatch key = none :=
  Option.eq_none_iff_forall_ne_some.mpr fun a ha => h a ((maskMatch_iff key g a).mp ha)

section Match

variable {filters : Bank Filter 16} {key : BitVec 16}

theorem matchKey_of_list {i : Fin 16} {a : Fin 32} (hi : listNames key a (filters.get i))
    (hbefore : ∀ j, j < i → ∀ x, ¬ listNames key x (filters.get j)) : matchKey filters.items key = some a := by
  unfold matchKey
  rw [findSome_items ((listMatch_iff key _ a).mpr hi) fun j hj => listMatch_eq_none (hbefore j hj)]
  rfl

theorem matchKey_of_mask {i : Fin 16} {a : Fin 32} (hlist : ∀ j x, ¬ listNames key x (filters.get j))
    (hi : maskNames key a (filters.get i)) (hbefore : ∀ j, j < i → ∀ x, ¬ maskNames key x (filters.get j)) :
    matchKey filters.items key = some a := by
  unfold matchKey
  rw [findSome_items_none fun j => listMatch_eq_none (hlist j),
    findSome_items ((maskMatch_iff key _ a).mpr hi) fun j hj => maskMatch_eq_none (hbefore j hj)]
  rfl

theorem matchKey_of_none
    (h : ∀ j a, ¬ listNames key a (filters.get j) ∧ ¬ maskNames key a (filters.get j)) :
    matchKey filters.items key = none := by
  unfold matchKey
  rw [findSome_items_none fun j => listMatch_eq_none fun a => (h j a).1,
    findSome_items_none fun j => maskMatch_eq_none fun a => (h j a).2]
  rfl

end Match

theorem pByte_lt (p : List Byte) (i : Nat) : pByte p i < 256 := (p.getD (i - 1) 0).isLt

theorem byte_pByte (p : List Byte) (i : Nat) : (byte (pByte p i)).toNat = pByte p i := by
  rw [byte, BitVec.toNat_ofNat]
  exact Nat.mod_eq_of_lt (pByte_lt p i)

/-- An edge field of 0 or 1 is the edge bit of the key. -/
theorem eventKey_eq (source : BitVec 6) {payload : List Byte} (h : pByte payload 2 ≤ 1) :
    eventKey source (pByte payload 2 = 1) (byte (pByte payload 3)) = keyOf source payload := by
  have hedge : (if decide (pByte payload 2 = 1) = true then 512 else 0) = pByte payload 2 * 512 := by
    obtain h0 | h1 : pByte payload 2 = 0 ∨ pByte payload 2 = 1 := by omega
    · simp [h0]
    · simp [h1]
  unfold eventKey keyOf
  rw [hedge, byte_pByte]

/-! ### EVENT frames (R164–R166) -/

section Route

variable {s : State} {source : BitVec 6} {payload : List Byte} (hrun : s.sl.station = .run)
  (hlen : 3 ≤ payload.length) (hedge : pByte payload 2 ≤ 1)

include hrun hlen hedge

theorem routeEvent_of_some {a : Fin 32} (h : matchKey s.cfg.filters.items (keyOf source payload) = some a) :
    routeEvent s source payload = runAction s (s.cfg.actions.get a) := by
  unfold routeEvent
  rw [if_pos ⟨hrun, hlen⟩, if_neg (by omega), eventKey_eq source hedge, h]

theorem routeEvent_of_none (h : matchKey s.cfg.filters.items (keyOf source payload) = none) :
    routeEvent s source payload = unmatchedCounted s := by
  unfold routeEvent
  rw [if_pos ⟨hrun, hlen⟩, if_neg (by omega), eventKey_eq source hedge, h]
  exact Eq.refl (unmatchedCounted s)

end Route

theorem routeEvent_routed (s : State) (source : BitVec 6) (payload : List Byte) :
    Routed s (routeEvent s source payload) source payload := by
  refine ⟨fun hnot => ?_, fun hrun hlen hedge => ?_, fun hrun hlen hedge => ⟨fun hnone => ?_,
    fun i a hi hbefore => ?_, fun i a hlist hi hbefore => ?_⟩⟩
  · exact if_neg fun h => hnot.elim (fun hr => hr h.1) (fun hl => by omega)
  · exact (if_pos ⟨hrun, hlen⟩).trans (if_pos (by omega))
  · exact routeEvent_of_none hrun hlen hedge (matchKey_of_none hnone)
  · exact routeEvent_of_some hrun hlen hedge (matchKey_of_list hi hbefore)
  · exact routeEvent_of_some hrun hlen hedge (matchKey_of_mask hlist hi hbefore)

/-- Settles O48: a heard EVENT frame is routed by its key, the LIST filters before the MASK filters. -/
theorem eventsAreMatchedByTheirKey : Obligations.EventsAreMatchedByTheirKey := fun _ f hrx =>
  ⟨_, if_pos hrx, routeEvent_routed _ f.source f.payload⟩

/-! ### The table stop (R69, R175) -/

/-- A claim withdrawn, whatever the other blocks hold. -/
theorem withdrawnFor_of_claim {s : State} {c : Claim} (h : s.db.claim = some c) (pc : Play) (cs : Coils) :
    withdrawInFlight { s with pc := pc, cs := cs } = withdrawnFor { s with pc := pc, cs := cs } c.output := by
  unfold withdrawInFlight
  rw [show ({ s with pc := pc, cs := cs } : State).db.claim = some c from h]
  exact withdrawClaim_eq _ _

theorem stop_eq (s : State) (n : Out) (c : Channel) :
    (if (s.prof n).mode.isCS = true then c.stop else c) =
      if (s.prof n).mode.isCS = true ∧ c.state ≠ .fault then
        { offed c with repeats := 0, holdWanted := false, train := none } else c := by
  by_cases hcs : (s.prof n).mode.isCS = true
  · by_cases hfault : c.state = .fault
    · rw [if_pos hcs, if_neg fun h => h.2 hfault, Channel.stop, if_pos hfault]
    · rw [if_pos hcs, if_pos ⟨hcs, hfault⟩, Channel.stop, if_neg hfault]
      rfl
  · rw [if_neg hcs, if_neg fun h => hcs h.1]

/-- The coils at the table stop. -/
def stoppedCoils (s : State) : Coils :=
  { s.cs with queue := [], chan := s.cs.chan.mapIdx fun n c =>
      if (s.prof n).mode.isCS = true ∧ c.state ≠ .fault then
        { offed c with repeats := 0, holdWanted := false, train := none } else c }

theorem stopCoils_eq (s : State) : stopCoils s = { s with cs := stoppedCoils s } := by
  unfold stopCoils stoppedCoils
  simp only [stop_eq s]

theorem clearView_withdrawInFlight (t : State) :
    clearView (restFlippers (withdrawInFlight t)) = rested { withdrawInFlight t with db := { (withdrawInFlight t).db with
      table := [], standing := t.db.standing.mapIdx fun _ r => { r with draw := 0 } } } := by
  unfold clearView
  rw [show (restFlippers (withdrawInFlight t)).db = (withdrawInFlight t).db from rfl, withdrawInFlight_standing]
  rfl

/-- The table stop in RUN. -/
theorem tableStop_eq {s : State} (hrun : s.sl.station = .run) : tableStop s = tableStopped s := by
  have hstopped : stopCoils { s with pc := { s.pc with stopped := true } } =
      { s with pc := { s.pc with stopped := true }, cs := stoppedCoils s } := stopCoils_eq _
  have htable : stoppedTable s = rested { withdrawInFlight { s with
      pc := { s.pc with stopped := true }, cs := stoppedCoils s } with
        db := { (withdrawInFlight { s with pc := { s.pc with stopped := true }, cs := stoppedCoils s }).db with
          table := [], standing := s.db.standing.mapIdx fun _ r => { r with draw := 0 } } } := by
    unfold stoppedTable
    rw [hstopped, clearView_withdrawInFlight]
  have hdraw : (stoppedTable s).ownDraw = 0 := by
    have hown : (stoppedTable s).own = s.own := congrArg Loader.number (stoppedTable_sl s)
    unfold State.ownDraw
    rw [hown]
    split
    · rw [stoppedTable_standing]
    · rfl
  rw [tableStop_of_run hrun, announceStanding_eq, hdraw, htable]
  unfold tableStopped
  cases hc : s.db.claim with
  | some c =>
    rw [withdrawnFor_of_claim hc]
    rfl
  | none =>
    have hkept : withdrawInFlight { s with pc := { s.pc with stopped := true }, cs := stoppedCoils s } =
        { s with pc := { s.pc with stopped := true }, cs := stoppedCoils s } := by
      unfold withdrawInFlight
      rw [show ({ s with pc := { s.pc with stopped := true }, cs := stoppedCoils s } : State).db.claim = none from hc]
    rw [hkept]
    rfl

/-! ### Frames handed to LC (R148) -/

section Hand

variable {lc : Link} {f : Frame} (hnew : ∀ g, replaces f g = false)

include hnew

theorem slotReplaced_of_new (x : Option Slot) : slotReplaced f x = false := by
  cases x <;> simp [slotReplaced, hnew]

/-- A frame that replaces none goes to slot 2, else to slot 3, else to the queue, else it is dropped. -/
theorem hand_of_new (hstate : lc.state ≠ .silent) :
    lc.hand f =
      if lc.slots.get 2 = none then lc.place 2 f
      else if lc.slots.get 3 = none then lc.place 3 f
      else if lc.outq.length < 8 then { lc with outq := lc.outq ++ [f] }
      else { lc with txDrop := bump lc.txDrop } := by
  have hqueue : lc.outq.any (replaces f) = false := by simp [hnew]
  unfold Link.hand
  rw [if_neg hstate, slotReplaced_of_new hnew, slotReplaced_of_new hnew, hqueue]
  rfl

theorem drops_iff : lc.drops f = true ↔ Pre.full lc := by
  have hheld : lc.holdsUnstarted f = false := by
    unfold Link.holdsUnstarted
    rw [slotReplaced_of_new hnew, slotReplaced_of_new hnew]
    simp [hnew]
  unfold Link.drops Pre.full
  rw [hheld]
  simp [Config.outQueueSize]

end Hand

theorem hand_of_silent {lc : Link} (h : lc.state = .silent) (f : Frame) : lc.hand f = lc := if_pos h

/-- A frame that is neither STANDING nor STATUS replaces none. -/
theorem replaces_of_kind {f : Frame} (h4 : f.kind ≠ 4) (h6 : f.kind ≠ 6) (g : Frame) : replaces f g = false := by
  have hne4 : ¬ f.kind = 4#5 := h4
  have hne6 : ¬ f.kind = 6#5 := h6
  simp [replaces, hne4, hne6]

/-! ### Actions (R110, R168, R172, R174) -/

theorem runAction_of_sameWork {a : Action} {c : Command} (h : SameWork a c) (s : State) :
    runCommand s c = runAction s a := by
  cases a <;> cases h <;> rfl

theorem playFrame_eq (own : BitVec 6) (k : PlayFrame) :
    playFrame own k = ⟨playPriority (playCode k).1, (playCode k).1, own, [(playCode k).2]⟩ := by
  cases k <;> rfl

theorem playFrame_new (own : BitVec 6) (k : PlayFrame) : ∀ g, replaces (playFrame own k) g = false := by
  refine replaces_of_kind ?_ ?_ <;> cases k <;> simp [playFrame]

theorem runAction_of_play {a : Action} {kind : BitVec 5} {code : Byte} (h : playOf a = some (kind, code)) :
    ∃ k, playCode k = (kind, code) ∧ ∀ s, runAction s a = raisePlay s k := by
  have hof (k : PlayFrame) (hk : some (playCode k) = some (kind, code)) (hrun : ∀ s, runAction s a = raisePlay s k) :
      ∃ k, playCode k = (kind, code) ∧ ∀ s, runAction s a = raisePlay s k := ⟨k, Option.some.inj hk, hrun⟩
  cases a with
  | raiseTilt => exact hof .tilt h fun _ => rfl
  | raiseSlam => exact hof .slam h fun _ => rfl
  | gameStart => exact hof .start h fun _ => rfl
  | gameOver => exact hof .over h fun _ => rfl
  | _ => cases h

theorem raisePlay_handed {s : State} (hstate : s.lc.state ≠ .silent) (hfull : ¬ Pre.full s.lc) (k : PlayFrame) :
    raisePlay s k = s.hand (playFrame s.own k) :=
  if_neg fun h => h.elim hstate fun hdrops => hfull ((drops_iff (playFrame_new s.own k)).mp hdrops)

theorem raisePlay_silent {s : State} (hstate : s.lc.state = .silent) (k : PlayFrame) : raisePlay s k = playChange s k := by
  have hhand : s.hand (playFrame s.own k) = s := by
    unfold State.hand
    rw [hand_of_silent hstate]
  exact (if_pos (.inl hstate)).trans (by rw [hhand])

theorem raisePlay_full {s : State} (hfull : Pre.full s.lc) (k : PlayFrame) :
    raisePlay s k = playChange { s with lc := { s.lc with txDrop := min 65535 (s.lc.txDrop + 1) } } k := by
  have hnew := playFrame_new s.own k
  have hdrops := (drops_iff hnew).mpr hfull
  obtain ⟨hstate, h2, h3, hqueue⟩ := hfull
  have hhand : s.hand (playFrame s.own k) = { s with lc := { s.lc with txDrop := min 65535 (s.lc.txDrop + 1) } } := by
    unfold State.hand
    rw [hand_of_new hnew hstate, if_neg h2, if_neg h3, if_neg (by omega)]
    rfl
  exact (if_pos (.inr hdrops)).trans (by rw [hhand])

/-- Settles O49: what an action comes to, for coils and lamps, for play frames and for the STOP pattern. -/
theorem actionsTakeTheirEffect : Obligations.ActionsTakeTheirEffect := by
  refine ⟨?work, ?handed, ?atOnce, ?stop, ?stopSilent⟩
  case work =>
    intro s k f a c htakes hsame
    rw [exec_of_takes htakes, runAction_of_sameWork hsame]
  case handed =>
    intro s a kind code hplay hstate hfull
    obtain ⟨k, hcode, hrun⟩ := runAction_of_play hplay
    have hframe : playFrame s.own k = ⟨playPriority kind, kind, s.own, [code]⟩ := by rw [playFrame_eq, hcode]
    have hhand := hand_of_new (playFrame_new s.own k) hstate
    rw [hrun, raisePlay_handed hstate hfull]
    refine ⟨_, rfl, fun h2 => ?_, fun h2 h3 => ?_, fun h2 h3 => ?_⟩
    · rw [hhand, if_pos h2, hframe]
      rfl
    · rw [hhand, if_neg h2, if_pos h3, hframe]
      rfl
    · have hlen : s.lc.outq.length < 8 := by
        refine Classical.byContradiction fun hlong => ?_
        exact hfull ⟨hstate, h2, h3, by omega⟩
      rw [hhand, if_neg h2, if_neg h3, if_pos hlen, hframe]
  case atOnce =>
    intro s a kind code i hplay hrun hown
    obtain ⟨k, hcode, haction⟩ := runAction_of_play hplay
    constructor
    · intro hstate
      rw [haction, raisePlay_silent hstate, playChange_eq hrun hown, hcode]
    · intro hfull
      rw [haction, raisePlay_full hfull,
        playChange_eq (s := { s with lc := { s.lc with txDrop := min 65535 (s.lc.txDrop + 1) } }) hrun hown, hcode]
  case stop => exact fun s hstate => if_neg hstate
  case stopSilent => exact fun s hstate hrun => (if_pos hstate).trans (tableStop_eq hrun)

end Sys2Proof.Proofs
end

section
/-! Own frames: what a completion hands on, the frame offered, and the loss of arbitration (O33, O34, O35). -/

namespace Sys2Proof.Proofs
open Sys2Proof.Machine

/-! ### Completion (R151) -/

/-- Settles O33: an own CLAIM is decided at its completion. -/
theorem ownClaimIsDecidedAtCompletion : Obligations.OwnClaimIsDecidedAtCompletion := by
  intro s f fails c ⟨hwire, hkind, hclaim⟩ hstate
  have hdecide := decideClaim_eq (s := { s with lc := sentBy s.lc 0 }) hclaim s.tick
  rw [exec_ownFrameComplete hwire hstate, ownHandedOn_claim hkind, ← hdecide]

theorem ownHandedOn_plain {f : Frame} (h : Pre.plainOwn f) (s : State) : ownHandedOn s f = s := by
  unfold ownHandedOn Pre.plainOwn at *
  obtain h | h | h | h := h <;> simp [h]

theorem ownHandedOn_play {f : Frame} (h : f.kind = 1 ∨ f.kind = 2) (s : State) :
    ownHandedOn s f = playFrameTaken s f.kind f.payload := by
  have hclaim : f.kind ≠ 3 := by
    obtain h | h := h <;> simp [h]
  exact (if_neg hclaim).trans (if_pos h)

theorem ownHandedOn_event {f : Frame} (h : f.kind = 8) (s : State) :
    ownHandedOn s f = routeEvent s s.own f.payload := by
  simp [ownHandedOn, h]

/-- Settles O34: what the completion of a frame in slot 1, 2 or 3 hands on. -/
theorem ownFramesAreHandedOnAtCompletion : Obligations.OwnFramesAreHandedOnAtCompletion := by
  refine ⟨?plain, ?play, ?unassigned, ?event⟩
  case plain =>
    intro s i f fails ⟨_, hwire, hstate⟩ hplain
    rw [exec_ownFrameComplete hwire hstate, ownHandedOn_plain hplain]
  case play =>
    intro s i f fails code j ⟨_, hwire, hstate⟩ hkind hcode hrun hown
    rw [exec_ownFrameComplete hwire hstate, ownHandedOn_play hkind,
      playFrameTaken_eq (s := { s with lc := sentBy s.lc i }) hkind hcode hrun hown]
  case unassigned =>
    intro s i f fails ⟨_, hwire, hstate⟩ hkind hnot
    rw [exec_ownFrameComplete hwire hstate, ownHandedOn_play hkind,
      playFrameTaken_of_not (s := { s with lc := sentBy s.lc i }) f.kind hnot]
  case event =>
    intro s i f fails ⟨_, hwire, hstate⟩ hkind
    exact ⟨_, (exec_ownFrameComplete hwire hstate).trans (by rw [ownHandedOn_event hkind]; rfl), routeEvent_routed _ _ _⟩

/-! ### The frame offered (R132, R150) -/

theorem waitingField_eq_some_iff {lc : Link} {i : Fin 4} {a : Nat} :
    lc.waitingField i = some a ↔ ∃ sl ∈ lc.slots.get i, sl.onWire = false ∧ sl.frame.arbitration = a := by
  unfold Link.waitingField
  cases lc.slots.get i with
  | none => simp
  | some sl => cases hwire : sl.onWire <;> simp [hwire]

/-- Slot i is offered: it holds the lowest arbitration field, and none before it does. -/
theorem offered_eq {s : State} {i : Fin 4} {f : Frame} {fails : Nat} (h : Pre.offer s i f fails) :
    s.lc.offered = some i := by
  obtain ⟨-, -, -, -, -, hslot, hlowest⟩ := h
  have hfield : s.lc.waitingField i = some f.arbitration := waitingField_eq_some_iff.mpr ⟨_, hslot, rfl, rfl⟩
  have hle {j : Fin 4} {b : Nat} (hj : s.lc.waitingField j = some b) :
      f.arbitration ≤ b ∧ (b = f.arbitration → i ≤ j) := by
    obtain ⟨g, hg, hwire, rfl⟩ := waitingField_eq_some_iff.mp hj
    exact hlowest j g hg hwire
  refine firstFin_eq_some_iff.mpr ⟨?_, fun j hj => ?_⟩
  · rw [hfield]
    refine List.all_eq_true.mpr fun j _ => ?_
    cases hj : s.lc.waitingField j with
    | none => rfl
    | some b => exact decide_eq_true (hle hj).1
  · cases hb : s.lc.waitingField j with
    | none => rfl
    | some b =>
      obtain ⟨hlow, heq⟩ := hle hb
      refine Bool.eq_false_iff.mpr fun hall => ?_
      have hi := List.all_eq_true.mp hall i (List.mem_finRange i)
      rw [hfield] at hi
      have hge : b ≤ f.arbitration := of_decide_eq_true hi
      exact absurd (heq (by omega)) (by omega)

theorem exec_frameOffer {s : State} {i : Fin 4} {f : Frame} {fails : Nat} (h : Pre.offer s i f fails) :
    exec .frameOffer s = .next { s with lc := { s.lc with
      slots := s.lc.slots.set i (some ⟨f, true, fails⟩)
      phase := .frame
      rx := some ⟨true, s.tick, s.lp.phase, s.lp.beat, [false], false, 1, none, false⟩ } } := by
  have hoffered := offered_eq h
  obtain ⟨hstarted, hphase, hstate, hstop, hreset, hslot, -⟩ := h
  have hmay : s.lc.mayOffer = true := by simp [Link.mayOffer, hstarted, hphase, hstate, hstop, hreset]
  show (if s.lc.mayOffer then _ else _) = _
  rw [if_pos hmay]
  unfold offerFrame
  rw [hoffered]
  dsimp only
  rw [hslot]
  rfl

/-! ### A shared frame returned to WAITING (R148) -/

theorem slotReplaced_iff (f : Frame) (x : Option Slot) :
    slotReplaced f x = true ↔ ∃ sl ∈ x, sl.onWire = false ∧ replaces f sl.frame = true := by
  cases x <;> simp [slotReplaced]

theorem replaces_iff (f g : Frame) : replaces f g = true ↔ f.kind = 4 ∧ g.kind = 4 ∨
    f.kind = 6 ∧ g.kind = 6 ∧ f.payload.head? = g.payload.head? ∧
      (f.payload.length = 1 ↔ g.payload.length = 1) := by
  unfold replaces
  rw [decide_eq_true_iff]

/-- What a frame left beside the emptied slot i supersedes. -/
theorem holdsUnstarted_empty_iff (lc : Link) (i : Fin 4) (f : Frame) :
    (lc.empty i).holdsUnstarted f = true ↔ Superseded lc i f := by
  have hget (j : Fin 4) : slotReplaced f ((lc.empty i).slots.get j) = true ↔
      j ≠ i ∧ ∃ sl ∈ lc.slots.get j, sl.onWire = false ∧ replaces f sl.frame = true := by
    show slotReplaced f ((lc.slots.set i none).get j) = true ↔ _
    rw [Bank.get_set, slotReplaced_iff]
    by_cases hj : j = i <;> simp [hj]
  unfold Link.holdsUnstarted Superseded
  simp only [← replaces_iff, Bool.or_eq_true, hget, List.any_eq_true]
  refine or_congr ?_ Iff.rfl
  constructor
  · rintro (h | h)
    · exact ⟨2, by decide, h⟩
    · exact ⟨3, by decide, h⟩
  · rintro ⟨j, hj, h⟩
    obtain rfl | rfl : j = 2 ∨ j = 3 := by omega
    · exact .inl h
    · exact .inr h

theorem returnShared_retried (lc : Link) (i : Fin 4) (sl : Slot) (fails : Nat) :
    Retried lc (lc.returnShared i sl fails) i sl.frame fails := by
  have hheld := holdsUnstarted_empty_iff lc i sl.frame
  unfold Link.returnShared
  refine ⟨fun h => ?_, fun h => ?_⟩
  · rw [if_neg fun hunstarted => h (hheld.mp hunstarted)]
  · rw [if_pos (hheld.mpr h), refill_eq_advanced]
    rfl

/-! ### The loss of arbitration (R126, R133, R150) -/

/-- The link controller that goes on receiving a frame it began to send. -/
def receiving (lc : Link) : Link := { lc with rx := lc.rx.map fun p => { p with transmitting := false } }

theorem exec_arbitrationLost {s : State} {i : Fin 4} {f : Frame} {fails : Nat} (h : Pre.onWire s i f fails) :
    exec .arbitrationLost s = .next (arbitrationEnd { s with lc := receiving s.lc } i ⟨f, true, fails⟩) := by
  obtain ⟨hwire, hslot⟩ := h
  show execArbitrationLost s = _
  unfold execArbitrationLost
  rw [hwire]
  dsimp only
  rw [hslot]
  rfl

/-- A frame of slot 0 or 1 waits again, unless its claim was withdrawn. -/
theorem arbitrationEnd_waiting (s : State) {i : Fin 4} (hi : i.val ≤ 1) (sl : Slot)
    (h : i.val = 0 → ∀ c ∈ s.db.claim, c.withdrawn = false) :
    arbitrationEnd s i sl =
      { s with lc := { s.lc with slots := s.lc.slots.set i (some { sl with onWire := false }) } } := by
  unfold arbitrationEnd
  dsimp only
  obtain rfl | rfl : i = 0 ∨ i = 1 := by omega
  · rw [if_pos rfl]
    cases hc : s.db.claim with
    | none => rfl
    | some c =>
      dsimp only
      rw [h rfl c hc]
      rfl
  · rw [if_neg (by decide), if_pos rfl]

theorem arbitrationEnd_withdrawn {s : State} {c : Claim} (hc : s.db.claim = some c) (hw : c.withdrawn = true)
    (sl : Slot) : arbitrationEnd s 0 sl =
      select { s with db := { s.db with claim := none }, lc := { s.lc with slots := s.lc.slots.set 0 none } } := by
  unfold arbitrationEnd
  rw [if_pos rfl, hc]
  dsimp only
  rw [if_pos hw]
  rfl

theorem arbitrationEnd_shared (s : State) {i : Fin 4} (hi : 2 ≤ i.val) (sl : Slot) :
    arbitrationEnd s i sl = { s with lc := s.lc.returnShared i sl sl.ackFails } :=
  (if_neg (ne_zero_of_shared hi)).trans (if_neg (by omega))

/-- Settles O35: the frame of the lowest arbitration field is offered, and one that loses waits again. -/
theorem framesAreOfferedAndMayLose : Obligations.FramesAreOfferedAndMayLose := by
  refine ⟨fun s i f fails h => exec_frameOffer h, ?waiting, ?shared, ?withdrawn⟩
  case waiting =>
    intro s i f fails hwire hi hclaim
    rw [exec_arbitrationLost hwire, arbitrationEnd_waiting { s with lc := receiving s.lc } hi _ hclaim]
    rfl
  case shared =>
    intro s i f fails hwire hi
    exact ⟨_, returnShared_retried (receiving s.lc) i ⟨f, true, fails⟩ fails,
      (exec_arbitrationLost hwire).trans (congrArg _ (arbitrationEnd_shared _ hi _))⟩
  case withdrawn =>
    intro s f fails c ⟨hwire, _, hclaim⟩ hw
    rw [exec_arbitrationLost hwire, arbitrationEnd_withdrawn (s := { s with lc := receiving s.lc }) hclaim hw]
    rfl

end Sys2Proof.Proofs
end

section
/-! Errors that leave the station speaking: the counts commute with what becomes of the frame (O36, O37, O39). -/

namespace Sys2Proof.Proofs
open Sys2Proof.Machine

/-! ### The counts (R155, R156) -/

/-- The link controller with TEC and link state set. -/
def counted (lc : Link) (tec : Nat) (state : LinkState) : Link := { lc with TEC := tec, state := state }

/-- The link state after a transmit error (R155, R156). -/
def stateAfter (lc : Link) (kind : ErrKind) : LinkState :=
  if lc.state = .passive ∧ kind = .ack then .passive else linkStateAt lc.state (tecAfter lc kind) lc.REC

theorem countTransmitError_eq {lc : Link} (h : lc.state ≠ .silent) (kind : ErrKind) :
    lc.countTransmitError kind = counted lc (tecAfter lc kind) (stateAfter lc kind) := by
  by_cases hno : lc.state = .passive ∧ kind = .ack
  · have hkept : lc.countTransmitError kind = lc := by
      obtain ⟨hpassive, rfl⟩ := hno
      unfold Link.countTransmitError
      rw [hpassive]
    unfold counted tecAfter stateAfter
    rw [hkept, if_pos hno, if_pos hno, ← hno.1]
  · have hcounts : lc.countTransmitError kind = lc.withCounts (satAdd 255 lc.TEC 8) lc.REC := by
      unfold Link.countTransmitError
      split
      next hsilent => exact absurd hsilent h
      next hpassive => exact absurd ⟨hpassive, rfl⟩ hno
      next => rfl
    unfold counted stateAfter tecAfter
    rw [hcounts, if_neg hno, if_neg hno, Link.withCounts, decideLink_eq]
    rfl

/-- A transmit error counted after the slots were changed: the counts are those of before. -/
theorem countTransmitError_of_same {lc lc' : Link} (h : lc.state ≠ .silent) (hstate : lc'.state = lc.state)
    (htec : lc'.TEC = lc.TEC) (hrec : lc'.REC = lc.REC) (kind : ErrKind) :
    lc'.countTransmitError kind = counted lc' (tecAfter lc kind) (stateAfter lc kind) := by
  rw [countTransmitError_eq (by rw [hstate]; exact h)]
  unfold stateAfter tecAfter
  rw [hstate, htec, hrec]

theorem errored_eq (lc : Link) (kind : ErrKind) :
    errored lc kind = counted lc.errorOver (tecAfter lc kind) (stateAfter lc kind) := by
  unfold errored Link.errorOver
  cases lc.rx with
  | none => rfl
  | some p => rfl

/-- What ends the reading of a frame leaves slots and counts. -/
theorem errorOver_frame (lc : Link) : lc.errorOver =
    { lc with phase := lc.errorOver.phase, recRun := lc.errorOver.recRun, rx := lc.errorOver.rx } := by
  unfold Link.errorOver
  split
  · split <;> rfl
  · rfl

theorem errorOver_state (lc : Link) : lc.errorOver.state = lc.state := by rw [errorOver_frame]
theorem errorOver_tec (lc : Link) : lc.errorOver.TEC = lc.TEC := by rw [errorOver_frame]
theorem errorOver_rec (lc : Link) : lc.errorOver.REC = lc.REC := by rw [errorOver_frame]
theorem errorOver_txDrop (lc : Link) : lc.errorOver.txDrop = lc.txDrop := by rw [errorOver_frame]
theorem errorOver_outq (lc : Link) : lc.errorOver.outq = lc.outq := by rw [errorOver_frame]

/-! ### The slots beside the counts -/

theorem advanced_counted (lc : Link) (tec : Nat) (state : LinkState) :
    advanced (counted lc tec state) = counted (advanced lc) tec state := by
  have hcongr := advanced_congr (lc := lc) (lc' := counted lc tec state) rfl rfl
  rw [advanced_frame (counted lc tec state), hcongr.1, hcongr.2, advanced_frame lc]
  rfl

theorem emptied_counted (lc : Link) (i : Fin 4) (tec : Nat) (state : LinkState) :
    (counted lc tec state).emptied i = counted (lc.emptied i) tec state := by
  rw [emptied_eq, emptied_eq]
  split
  · exact advanced_counted { lc with slots := lc.slots.set i none } tec state
  · rfl

theorem returnShared_counted (lc : Link) (i : Fin 4) (sl : Slot) (fails tec : Nat) (state : LinkState) :
    (counted lc tec state).returnShared i sl fails = counted (lc.returnShared i sl fails) tec state := by
  unfold Link.returnShared
  rw [show ((counted lc tec state).empty i).holdsUnstarted sl.frame = (lc.empty i).holdsUnstarted sl.frame from rfl]
  split
  · rw [refill_eq_advanced, refill_eq_advanced]
    exact advanced_counted (lc.empty i) tec state
  · rfl

theorem returnShared_frame (lc : Link) (i : Fin 4) (sl : Slot) (fails : Nat) : lc.returnShared i sl fails =
    { lc with slots := (lc.returnShared i sl fails).slots, outq := (lc.returnShared i sl fails).outq } := by
  unfold Link.returnShared
  split
  · rw [refill_eq_advanced]
    exact advanced_frame _
  · rfl

/-! ### An error in a frame of this station (R152) -/

/-- What follows a play change given up (R172). -/
def takeDropped (dropped : Option PlayFrame) (s : State) : State :=
  match dropped with
  | some k => playChange s k
  | none => s

section Error

variable {s : State} {f : Frame} {fails : Nat} (kind : ErrKind) (found : Tick)

theorem exec_transmitError_claim (h : Pre.onWire s 0 f fails) :
    exec (.transmitError kind found) s =
      .next (countError (claimError { s with lc := s.lc.errorOver } kind found) kind none select) := by
  obtain ⟨hwire, hslot⟩ := h
  show execTransmitError kind found s = _
  unfold execTransmitError
  rw [hwire]
  dsimp only
  rw [hslot]
  rfl

theorem exec_transmitError_beat (h : Pre.onWire s 1 f fails) :
    exec (.transmitError kind found) s =
      .next (countError { s with lc := s.lc.errorOver.empty 1 } kind none id) := by
  obtain ⟨hwire, hslot⟩ := h
  show execTransmitError kind found s = _
  unfold execTransmitError
  rw [hwire]
  dsimp only
  rw [hslot]
  rfl

theorem exec_transmitError_shared {i : Fin 4} (hi : 2 ≤ i.val) (h : Pre.onWire s i f fails) :
    exec (.transmitError kind found) s =
      .next (countError { s with lc := (sharedError s.lc.errorOver i ⟨f, true, fails⟩ kind).1 } kind
        (sharedError s.lc.errorOver i ⟨f, true, fails⟩ kind).2
        (takeDropped (sharedError s.lc.errorOver i ⟨f, true, fails⟩ kind).2)) := by
  obtain ⟨hwire, hslot⟩ := h
  show execTransmitError kind found s = _
  unfold execTransmitError
  rw [hwire]
  dsimp only
  rw [hslot]
  dsimp only
  rw [if_neg (ne_zero_of_shared hi), if_neg (by omega)]
  rfl

end Error

theorem countError_of_speaking {t : State} {kind : ErrKind} (h : (t.lc.countTransmitError kind).state ≠ .silent)
    (dropped : Option PlayFrame) (rest : State → State) :
    countError t kind dropped rest = rest { t with lc := t.lc.countTransmitError kind } := if_neg fun hs => h hs.1

theorem countError_of_silenced {t : State} {kind : ErrKind} (h : (t.lc.countTransmitError kind).state = .silent)
    (hstate : t.lc.state ≠ .silent) (dropped : Option PlayFrame) (rest : State → State) :
    countError t kind dropped rest = enterSilent { t with lc := t.lc.countTransmitError kind } dropped :=
  if_pos ⟨h, hstate⟩

theorem stateAfter_of_speaking {s : State} {kind : ErrKind} (h : Pre.speaking s kind) :
    stateAfter s.lc kind ≠ .silent := by
  obtain ⟨hstate, hcount⟩ := h
  unfold stateAfter tecAfter
  split
  · simp
  next hno =>
    have htec : s.lc.TEC ≤ 183 := hcount.resolve_right hno
    unfold linkStateAt
    rw [if_neg fun h => h.elim hstate fun hle => by omega]
    split <;> simp

/-! ### A frame of slot 1, 2 or 3 -/

theorem sharedError_returned (lc : Link) (i : Fin 4) (sl : Slot) {kind : ErrKind}
    (h : kind ≠ .ack ∨ sl.ackFails < 7) :
    sharedError lc i sl kind = (lc.returnShared i sl (if kind = .ack then sl.ackFails + 1 else 0), none) := by
  unfold sharedError
  by_cases hack : kind = .ack
  · have hlt : ¬ Config.ackFailLimit ≤ sl.ackFails + 1 := by
      have := h.resolve_left fun hne => hne hack
      unfold Config.ackFailLimit
      omega
    rw [if_pos hack, if_neg hlt, if_pos hack]
  · rw [if_neg hack, if_neg hack]

theorem sharedError_dropped (lc : Link) (i : Fin 4) (sl : Slot) (h : 7 ≤ sl.ackFails) :
    sharedError lc i sl .ack =
      ({ lc.emptied i with txDrop := bump lc.txDrop }, playFrameOf sl.frame.kind sl.frame.payload) := by
  have hle : Config.ackFailLimit ≤ sl.ackFails + 1 := by
    unfold Config.ackFailLimit
    omega
  unfold sharedError
  rw [if_pos rfl, if_pos hle]

/-- A shared frame that the error does not drop, its counts raised. -/
theorem countTransmitError_returned {lc : Link} (h : lc.state ≠ .silent) (i : Fin 4) (sl : Slot) (fails : Nat)
    (kind : ErrKind) :
    (lc.errorOver.returnShared i sl fails).countTransmitError kind = (errored lc kind).returnShared i sl fails := by
  rw [errored_eq, returnShared_counted]
  refine countTransmitError_of_same h ?_ ?_ ?_ kind <;> rw [returnShared_frame]
  · exact errorOver_state lc
  · exact errorOver_tec lc
  · exact errorOver_rec lc

/-- A shared frame that the error drops. -/
theorem countTransmitError_dropped {lc : Link} (h : lc.state ≠ .silent) {i : Fin 4} (hi : 2 ≤ i.val) :
    ({ lc.errorOver.emptied i with txDrop := bump lc.errorOver.txDrop } : Link).countTransmitError .ack =
      { advanced { errored lc .ack with slots := lc.slots.set i none } with
        txDrop := min 65535 (lc.txDrop + 1) } := by
  have hempty : advanced { errored lc .ack with slots := lc.slots.set i none } =
      counted (lc.errorOver.emptied i) (tecAfter lc .ack) (stateAfter lc .ack) := by
    rw [← emptied_counted, ← errored_eq, emptied_eq, if_pos hi, errored_eq]
    have hslots : (counted lc.errorOver (tecAfter lc .ack) (stateAfter lc .ack)).slots = lc.slots :=
      errorOver_slots lc
    rw [hslots]
  rw [hempty, countTransmitError_of_same (lc := lc) h (lc' := { lc.errorOver.emptied i with
    txDrop := bump lc.errorOver.txDrop }), errorOver_txDrop]
  · rfl
  · show (lc.errorOver.emptied i).state = _
    rw [emptied_frame]
    exact errorOver_state lc
  · show (lc.errorOver.emptied i).TEC = _
    rw [emptied_frame]
    exact errorOver_tec lc
  · show (lc.errorOver.emptied i).REC = _
    rw [emptied_frame]
    exact errorOver_rec lc

/-- Slot i emptied, the error counted. -/
theorem countTransmitError_empty {lc : Link} (h : lc.state ≠ .silent) (i : Fin 4) (kind : ErrKind) :
    (lc.errorOver.empty i).countTransmitError kind = { errored lc kind with slots := lc.slots.set i none } := by
  rw [countTransmitError_of_same (lc' := lc.errorOver.empty i) h (errorOver_state lc) (errorOver_tec lc)
    (errorOver_rec lc), errored_eq]
  unfold counted Link.empty
  rw [errorOver_slots]

theorem errored_state (lc : Link) (kind : ErrKind) : (errored lc kind).state = stateAfter lc kind := by
  rw [errored_eq]
  rfl

/-- Settles O36: what becomes of a frame of slot 1, 2 or 3 that ended in an error. -/
theorem sharedFrameErrorIsRetriedOrDropped : Obligations.SharedFrameErrorIsRetriedOrDropped := by
  refine ⟨?beat, ?returned, ?dropped⟩
  case beat =>
    intro s f fails kind found hwire hspeak
    have hcount := countTransmitError_empty hspeak.1 1 kind
    have hstate := stateAfter_of_speaking hspeak
    rw [exec_transmitError_beat kind found hwire, countError_of_speaking (by rw [hcount]; rwa [← errored_state] at hstate)]
    exact congrArg (fun lc => Host.Outcome.next { s with lc := lc }) hcount
  case returned =>
    intro s i f fails kind found hi hwire hspeak hretry
    have hcount := countTransmitError_returned hspeak.1 i ⟨f, true, fails⟩ (if kind = .ack then fails + 1 else 0) kind
    have hstate : ((errored s.lc kind).returnShared i ⟨f, true, fails⟩
        (if kind = .ack then fails + 1 else 0)).state ≠ .silent := by
      rw [returnShared_frame]
      exact (errored_state s.lc kind).symm ▸ stateAfter_of_speaking hspeak
    refine ⟨_, returnShared_retried (errored s.lc kind) i ⟨f, true, fails⟩ _, ?_⟩
    rw [exec_transmitError_shared kind found hi hwire, sharedError_returned _ i _ hretry,
      countError_of_speaking (by rw [hcount]; exact hstate)]
    exact congrArg (fun lc => Host.Outcome.next { s with lc := lc }) hcount
  case dropped =>
    intro s i f fails found hi hwire hfails hspeak
    have hcount := countTransmitError_dropped hspeak.1 hi
    have hstate : (advanced { errored s.lc .ack with slots := s.lc.slots.set i none }).state ≠ .silent := by
      rw [advanced_frame]
      exact (errored_state s.lc .ack).symm ▸ stateAfter_of_speaking hspeak
    have hexec : exec (.transmitError .ack found) s = .next (takeDropped (playFrameOf f.kind f.payload) { s with
        lc := { advanced { errored s.lc .ack with slots := s.lc.slots.set i none } with
          txDrop := min 65535 (s.lc.txDrop + 1) } }) := by
      rw [exec_transmitError_shared .ack found hi hwire, sharedError_dropped _ i _ hfails,
        countError_of_speaking (by rw [hcount]; exact hstate)]
      exact congrArg (fun lc => Host.Outcome.next (takeDropped _ { s with lc := lc })) hcount
    have hplay (t : State) : takeDropped (playFrameOf f.kind f.payload) t = playFrameTaken t f.kind f.payload := rfl
    refine ⟨fun hno => ?_, fun code j hkind hrun hcode hown => ?_⟩
    · rw [hexec]
      obtain ⟨h1, h2⟩ | hnot := hno
      · rw [playFrameOf_of_kind h1 h2]
        rfl
      · exact congrArg _ (playFrameTaken_of_not (s := { s with lc := _ }) f.kind hnot)
    · rw [hexec, hplay]
      exact congrArg _ (playFrameTaken_eq (s := { s with lc := _ }) hkind hcode hrun hown)

/-! ### An own CLAIM (R61, R62) -/

/-- The decision leaves the link controller, and asks of it only whether it is SILENT. -/
theorem afterDecision_lc (s : State) {lc : Link} (h : lc.state = .silent ↔ s.lc.state = .silent) (c : Claim)
    (at_ : Tick) : afterDecision { s with lc := lc } c at_ = { afterDecision s c at_ with lc := lc } := by
  have hceiling : ceilingOf { s with lc := lc } c.cls = ceilingOf s c.cls := by
    have hisolated : State.isolated { s with lc := lc } = s.isolated := by
      unfold State.isolated State.viewing
      simp only [h]
    unfold ceilingOf
    rw [hisolated]
  unfold afterDecision
  dsimp only
  rw [hceiling]
  split
  · rfl
  · split <;> rfl

theorem afterDecision_keeps_lc (s : State) (c : Claim) (at_ : Tick) : (afterDecision s c at_).lc = s.lc := by
  unfold afterDecision
  dsimp only
  split
  · rfl
  · split <;> rfl

theorem clearClaim_eq_claimReturned (s : State) : clearClaim s = claimReturned s := by
  unfold clearClaim claimReturned
  cases s.db.claim with
  | none => rfl
  | some c =>
    dsimp only
    split <;> rfl

/-- A claim returned leaves the link controller, and asks nothing of it. -/
theorem claimReturned_lc (s : State) (lc : Link) :
    claimReturned { s with lc := lc } = { claimReturned s with lc := lc } := by
  unfold claimReturned
  cases s.db.claim <;> rfl

theorem claimReturned_keeps_lc (s : State) : (claimReturned s).lc = s.lc := by
  unfold claimReturned
  cases s.db.claim <;> rfl

/-- Settles O37: an acknowledge error alone decides an own CLAIM, another error returns its entry. -/
theorem ownClaimErrorIsDecidedOrReturned : Obligations.OwnClaimErrorIsDecidedOrReturned := by
  have hstate {s : State} {kind : ErrKind} (hspeak : Pre.speaking s kind) :
      ((s.lc.errorOver.empty 0).countTransmitError kind).state ≠ .silent := by
    rw [countTransmitError_empty hspeak.1]
    exact (errored_state s.lc kind).symm ▸ stateAfter_of_speaking hspeak
  refine ⟨?decided, ?returned⟩
  case decided =>
    intro s f fails c found ⟨hwire, _, hclaim⟩ hspeak
    have hcount := countTransmitError_empty hspeak.1 0 .ack
    have hclaimed : claimError { s with lc := s.lc.errorOver } .ack found =
        afterDecision { s with lc := s.lc.errorOver.empty 0 } c found :=
      decideClaim_eq (s := { s with lc := s.lc.errorOver.empty 0 }) hclaim found
    have hlc := afterDecision_keeps_lc { s with lc := s.lc.errorOver.empty 0 } c found
    rw [exec_transmitError_claim .ack found hwire, hclaimed,
      countError_of_speaking (by rw [hlc]; exact hstate hspeak), hlc, hcount]
    refine congrArg (fun t => Host.Outcome.next (select t)) ?_
    refine (afterDecision_lc { s with lc := s.lc.errorOver.empty 0 } ?_ c found).symm
    exact iff_of_false ((errored_state s.lc .ack).symm ▸ stateAfter_of_speaking hspeak)
      (by rw [show ({ s with lc := s.lc.errorOver.empty 0 } : State).lc.state = s.lc.state from errorOver_state _]
          exact hspeak.1)
  case returned =>
    intro s f fails c kind found ⟨hwire, _, hclaim⟩ hspeak hkind
    have hcount := countTransmitError_empty hspeak.1 0 kind
    have hclaimed : claimError { s with lc := s.lc.errorOver } kind found =
        { claimReturned s with lc := s.lc.errorOver.empty 0 } := by
      rw [← claimReturned_lc, ← clearClaim_eq_claimReturned]
      exact if_neg hkind
    rw [exec_transmitError_claim kind found hwire, hclaimed, countError_of_speaking (hstate hspeak)]
    have hreturned : claimReturned s = { s with
        db := { s.db with claim := none }
        cs := { s.cs with queue := if c.withdrawn then s.cs.queue else s.cs.queue.map fun e =>
          if e.output = c.output then { e with inFlight := false } else e } } := by
      unfold claimReturned
      rw [hclaim]
    rw [hreturned, hcount]

/-! ### Receive errors and recovery (R155, R159) -/

theorem exec_receiveError {s : State} (h : s.canReceive = true) (kind : ErrKind) :
    exec (.receiveError kind) s = .next { s with lc := s.lc.errorOver.countReceiveError } := if_pos h

/-- Settles O39: the receive error count, and the recovery from SILENT. -/
theorem errorCountsRiseAndRecover : Obligations.ErrorCountsRiseAndRecover := by
  refine ⟨fun s kind hrx => ⟨_, exec_receiveError hrx kind, rfl, ?_, errorOver_tec s.lc, errorOver_slots s.lc,
    errorOver_outq s.lc, ?_⟩, fun s hstate => if_pos hstate⟩
  · show satAdd 255 s.lc.errorOver.REC 1 = _
    rw [errorOver_rec]
    rfl
  · show decideLink s.lc.errorOver.state s.lc.errorOver.TEC (satAdd 255 s.lc.errorOver.REC 1) = _
    rw [errorOver_state, errorOver_tec, errorOver_rec, decideLink_eq]
    rfl

end Sys2Proof.Proofs
end

section
/-! The entry to SILENT: every own frame is given up, and the play changes of those that carry one are taken in a
free order with the selection (O38). -/

namespace Sys2Proof.Proofs
open Sys2Proof.Machine

/-! ### The frames held in slots 2 and 3 and in the queue (R158, R172) -/

/-- The shared frames, those of the slots before those of the queue. -/
def heldFrames (lc : Link) : List Frame :=
  ([2, 3].filterMap fun i => (lc.slots.get i).map (·.frame)) ++ lc.outq

theorem heldPlays_eq (lc : Link) :
    lc.heldPlays = (heldFrames lc).filterMap fun f => playFrameOf f.kind f.payload := rfl

theorem heldFrames_eq (lc : Link) :
    heldFrames lc = ((lc.slots.get 2).map (·.frame)).toList ++ ((lc.slots.get 3).map (·.frame)).toList ++ lc.outq := by
  unfold heldFrames
  rw [List.filterMap_cons, List.filterMap_cons, List.filterMap_nil]
  cases lc.slots.get 2 <;> cases lc.slots.get 3 <;> rfl

theorem playCarried_eq (f : Frame) : playCarried f = (playFrameOf f.kind f.payload).map playCode := by
  unfold playCarried
  cases hhead : f.payload.head? with
  | none =>
    have hno := playFrameOf_of_unassigned f.kind (payload := f.payload) fun code h => by
      rw [h.1] at hhead
      cases hhead
    rw [hno]
    rfl
  | some code =>
    dsimp only
    by_cases h : (f.kind = 1 ∨ f.kind = 2) ∧ (code = 1 ∨ code = 2)
    · obtain ⟨k, hplay, hcode⟩ := playFrameOf_of_assigned h.1 ⟨hhead, h.2⟩
      rw [if_pos h, hplay, ← hcode]
      rfl
    · rw [if_neg h]
      have hno : playFrameOf f.kind f.payload = none := by
        by_cases hkind : f.kind = 1 ∨ f.kind = 2
        · refine playFrameOf_of_unassigned f.kind fun c hc => h ⟨hkind, ?_⟩
          rw [hc.1] at hhead
          exact Option.some.inj hhead ▸ hc.2
        · exact playFrameOf_of_kind (fun h1 => hkind (.inl h1)) (fun h2 => hkind (.inr h2)) _
      rw [hno]
      rfl

theorem playsHeld_eq (lc : Link) : playsHeld lc = lc.heldPlays.map playCode := by
  rw [heldPlays_eq, List.map_filterMap]
  exact congrArg (fun carried => List.filterMap carried _) (funext playCarried_eq)

/-- The queue moved up holds the same frames. -/
theorem heldFrames_advanced (lc : Link) : (heldFrames (advanced lc)).Perm (heldFrames lc) := by
  have h32 (x : Option Slot) : (lc.slots.set 2 x).get 3 = lc.slots.get 3 := Bank.get_set_ne _ _ (by decide)
  have h23 (b : Bank (Option Slot) 4) (x : Option Slot) : (b.set 3 x).get 2 = b.get 2 := Bank.get_set_ne _ _ (by decide)
  rw [heldFrames_eq, heldFrames_eq]
  unfold advanced
  cases h2 : lc.slots.get 2 <;> cases h3 : lc.slots.get 3 <;> rcases hq : lc.outq with _ | ⟨f, _ | ⟨g, rest⟩⟩ <;>
    simp [h2, h3, hq, h32, h23, List.Perm.swap]

/-- A shared slot emptied: its frame is gone, the others stay. -/
theorem heldFrames_empty {lc : Link} {i : Fin 4} (hi : 2 ≤ i.val) {sl : Slot} (h : lc.slots.get i = some sl) :
    (sl.frame :: heldFrames { lc with slots := lc.slots.set i none }).Perm (heldFrames lc) := by
  have h32 : (lc.slots.set 2 none).get 3 = lc.slots.get 3 := Bank.get_set_ne _ _ (by decide)
  have h23 : (lc.slots.set 3 none).get 2 = lc.slots.get 2 := Bank.get_set_ne _ _ (by decide)
  rw [heldFrames_eq, heldFrames_eq]
  obtain rfl | rfl : i = 2 ∨ i = 3 := by omega
  · simp [h32, h]
  · simpa [h23, h] using List.perm_middle.symm

theorem heldFrames_reslot {lc : Link} {i : Fin 4} {sl sl' : Slot} (h : lc.slots.get i = some sl)
    (hframe : sl'.frame = sl.frame) : heldFrames { lc with slots := lc.slots.set i (some sl') } = heldFrames lc := by
  have hget (j : Fin 4) : ((lc.slots.set i (some sl')).get j).map (·.frame) = (lc.slots.get j).map (·.frame) := by
    rw [Bank.get_set]
    split
    next hj => rw [hj, h, Option.map_some, Option.map_some, hframe]
    next => rfl
  rw [heldFrames_eq, heldFrames_eq]
  dsimp only
  rw [hget, hget]

theorem heldFrames_emptied {lc : Link} {i : Fin 4} (hi : 2 ≤ i.val) {sl : Slot} (h : lc.slots.get i = some sl) :
    (sl.frame :: heldFrames (lc.emptied i)).Perm (heldFrames lc) := by
  rw [emptied_eq, if_pos hi]
  exact ((heldFrames_advanced _).cons _).trans (heldFrames_empty hi h)

/-- A frame that another supersedes is a STANDING or a STATUS frame, and carries no play change. -/
theorem playFrameOf_of_held {lc : Link} {f : Frame} (h : lc.holdsUnstarted f = true) :
    playFrameOf f.kind f.payload = none := by
  have hkind : f.kind = 4 ∨ f.kind = 6 := by
    refine Classical.byContradiction fun hno => ?_
    obtain ⟨h4, h6⟩ := not_or.mp hno
    have hnew := replaces_of_kind h4 h6
    unfold Link.holdsUnstarted at h
    rw [slotReplaced_of_new hnew, slotReplaced_of_new hnew] at h
    simp [hnew] at h
  refine playFrameOf_of_kind ?_ ?_ _ <;> obtain h4 | h6 := hkind <;> simp [*]

/-- A frame that waits again is held still; one discarded for a newer one carried no play change. -/
theorem heldPlays_returnShared {lc : Link} {i : Fin 4} (hi : 2 ≤ i.val) {sl : Slot} (h : lc.slots.get i = some sl)
    (fails : Nat) : (lc.returnShared i sl fails).heldPlays.Perm lc.heldPlays := by
  rw [heldPlays_eq, heldPlays_eq]
  unfold Link.returnShared
  split
  next hheld =>
    have hperm := (heldFrames_emptied hi h).filterMap fun f => playFrameOf f.kind f.payload
    rw [List.filterMap_cons_none (f := fun f : Frame => playFrameOf f.kind f.payload) (playFrameOf_of_held hheld),
      Link.emptied, if_neg (by omega)] at hperm
    exact hperm
  next => rw [heldFrames_reslot (sl' := { sl with onWire := false, ackFails := fails }) h rfl]

/-- The play changes of the frames held, with that of a frame dropped, are those held before the error. -/
theorem heldPlays_sharedError {lc : Link} {i : Fin 4} (hi : 2 ≤ i.val) {sl : Slot} (h : lc.slots.get i = some sl)
    (kind : ErrKind) :
    ((sharedError lc i sl kind).2.toList ++ (sharedError lc i sl kind).1.heldPlays).Perm lc.heldPlays := by
  unfold sharedError
  split
  · split
    · have hperm := (heldFrames_emptied hi h).filterMap fun f => playFrameOf f.kind f.payload
      rw [List.filterMap_cons] at hperm
      rw [heldPlays_eq lc]
      refine List.Perm.trans (List.Perm.of_eq ?_) hperm
      show (playFrameOf sl.frame.kind sl.frame.payload).toList ++ (lc.emptied i).heldPlays = _
      rw [heldPlays_eq]
      cases playFrameOf sl.frame.kind sl.frame.payload <;> rfl
    · exact heldPlays_returnShared hi h _
  · exact heldPlays_returnShared hi h _

theorem heldPlays_congr {lc lc' : Link} (h2 : lc'.slots.get 2 = lc.slots.get 2) (h3 : lc'.slots.get 3 = lc.slots.get 3)
    (hqueue : lc'.outq = lc.outq) : lc'.heldPlays = lc.heldPlays := by
  rw [heldPlays_eq, heldPlays_eq, heldFrames_eq, heldFrames_eq, h2, h3, hqueue]

theorem heldPlays_countTransmitError (lc : Link) (kind : ErrKind) :
    (lc.countTransmitError kind).heldPlays = lc.heldPlays := by
  unfold Link.countTransmitError
  split <;> rfl

theorem heldPlays_errorOver (lc : Link) : lc.errorOver.heldPlays = lc.heldPlays :=
  heldPlays_congr (by rw [errorOver_slots]) (by rw [errorOver_slots]) (errorOver_outq lc)

theorem heldPlays_empty (lc : Link) {i : Fin 4} (hi : i.val < 2) : (lc.empty i).heldPlays = lc.heldPlays :=
  heldPlays_congr (Bank.get_set_ne _ _ (by omega)) (Bank.get_set_ne _ _ (by omega)) rfl

/-! ### The station that an error silences -/

theorem stateAfter_of_silencing {s : State} {i : Fin 4} {f : Frame} {fails : Nat} {kind : ErrKind}
    (h : Pre.silencing s i f fails kind) : s.lc.state ≠ .silent ∧ stateAfter s.lc kind = .silent := by
  obtain ⟨-, hstate, htec⟩ := h
  have hnot : ¬ (s.lc.state = .passive ∧ kind = .ack) := fun ⟨hp, hk⟩ =>
    hstate.elim (fun h => h.2 hk) (fun ha => by rw [hp] at ha; cases ha)
  have hne : s.lc.state ≠ .silent := by
    obtain ⟨h, -⟩ | h := hstate <;> simp [h]
  refine ⟨hne, ?_⟩
  unfold stateAfter tecAfter
  rw [if_neg hnot, if_neg hnot]
  exact if_pos (.inr (by omega))

theorem claimReturned_again (s : State) : claimReturned (claimReturned s) = claimReturned s := by
  unfold claimReturned
  cases hc : s.db.claim with
  | none =>
    dsimp only
    rw [hc]
  | some c => rfl

/-- A claim given up at the entry to SILENT: decided where its own frame ended in an acknowledge error alone. -/
theorem claimError_eq (s : State) (kind : ErrKind) (found : Tick) :
    claimError { s with lc := s.lc.errorOver } kind found =
      { (if kind = .ack then ackDecided s 0 kind found else claimReturned s) with lc := s.lc.errorOver.empty 0 } := by
  unfold claimError
  dsimp only
  by_cases hack : kind = .ack
  · rw [if_pos hack, if_pos hack, ackDecided]
    cases hclaim : s.db.claim with
    | none => rw [decideClaim, show ({ s with lc := s.lc.errorOver.empty 0 } : State).db.claim = none from hclaim]
    | some c =>
      dsimp only
      rw [decideClaim_eq (s := { s with lc := s.lc.errorOver.empty 0 }) hclaim, if_pos ⟨rfl, hack⟩]
      exact afterDecision_lc s (by rw [show (s.lc.errorOver.empty 0).state = s.lc.state from errorOver_state _]) c found
  · rw [if_neg hack, if_neg hack, clearClaim_eq_claimReturned, claimReturned_lc]

theorem ackDecided_of_other {s : State} {i : Fin 4} {kind : ErrKind} (h : ¬ (i = 0 ∧ kind = .ack)) (found : Tick) :
    ackDecided s i kind found = s := by
  unfold ackDecided
  split
  · exact if_neg h
  · rfl

theorem clearClaim_claimError (s : State) (lc : Link) (kind : ErrKind) (found : Tick) :
    clearClaim { claimError { s with lc := s.lc.errorOver } kind found with lc := lc } =
      { claimReturned (ackDecided s 0 kind found) with lc := lc } := by
  rw [clearClaim_eq_claimReturned, claimError_eq, claimReturned_lc]
  by_cases hack : kind = .ack
  · rw [if_pos hack, claimReturned_lc]
  · rw [if_neg hack, claimReturned_lc, claimReturned_again, ackDecided_of_other fun h => hack h.2]

/-- The entry to SILENT, in the station whose claim is given up. -/
theorem enterSilent_eq {s t : State} {i : Fin 4} {fails : Nat} {kind : ErrKind} {found : Tick}
    (hclaim : clearClaim t = { claimReturned (ackDecided s i kind found) with lc := t.lc })
    (hlink : t.lc.cleared = { errored s.lc kind with
      slots := .fill 4 none, outq := [], stopLeft := 0, recovery := 0, partialRun := 0
      txDrop := if kind = .ack ∧ 7 ≤ fails ∧ 2 ≤ i.val then min 65535 (s.lc.txDrop + 1) else s.lc.txDrop })
    (dropped : Option PlayFrame) :
    enterSilent t dropped = giveUp (silenced s i fails kind found) (dropped.toList ++ t.lc.heldPlays) := by
  unfold enterSilent silenced
  dsimp only
  rw [hclaim]
  dsimp only
  rw [hlink]

/-- Slots, queue and drop counter changed, all but the counter is cleared alike. -/
theorem cleared_of_frames (lc : Link) (slots : Bank (Option Slot) 4) (outq : List Frame) (txDrop : Nat) :
    ({ lc with slots := slots, outq := outq, txDrop := txDrop } : Link).cleared = { lc with
      slots := .fill 4 none, outq := [], stopLeft := 0, recovery := 0, partialRun := 0, txDrop := txDrop } := rfl

theorem errored_txDrop (lc : Link) (kind : ErrKind) : (errored lc kind).txDrop = lc.txDrop := by
  rw [errored_eq]
  exact errorOver_txDrop lc

theorem clearClaim_lc (s : State) (lc : Link) : clearClaim { s with lc := lc } = { claimReturned s with lc := lc } := by
  rw [clearClaim_eq_claimReturned, claimReturned_lc]

section Silencing

variable {s : State} {i : Fin 4} {f : Frame} {fails : Nat} {kind : ErrKind} (found : Tick)

theorem silenced_by_claim (h : Pre.silencing s 0 f fails kind) :
    exec (.transmitError kind found) s = .next (giveUp (silenced s 0 fails kind found) s.lc.heldPlays) := by
  obtain ⟨hstate, hsilent⟩ := stateAfter_of_silencing h
  have hcount := countTransmitError_empty hstate 0 kind
  have hlc : (claimError { s with lc := s.lc.errorOver } kind found).lc = s.lc.errorOver.empty 0 := by
    rw [claimError_eq]
  rw [exec_transmitError_claim kind found h.1,
    countError_of_silenced (by rw [hlc, hcount]; exact (errored_state s.lc kind).trans hsilent)
      (by rw [hlc]; exact fun hs => hstate ((errorOver_state s.lc).symm.trans hs)),
    hlc, enterSilent_eq (clearClaim_claimError s _ kind found)]
  · rw [heldPlays_countTransmitError, heldPlays_empty _ (by decide), heldPlays_errorOver]
    rfl
  · dsimp only
    rw [hcount, if_neg fun h => absurd h.2.2 (by decide), ← errored_txDrop s.lc kind]
    rfl

theorem silenced_by_beat (h : Pre.silencing s 1 f fails kind) :
    exec (.transmitError kind found) s = .next (giveUp (silenced s 1 fails kind found) s.lc.heldPlays) := by
  obtain ⟨hstate, hsilent⟩ := stateAfter_of_silencing h
  have hcount := countTransmitError_empty hstate 1 kind
  have hkept := ackDecided_of_other (s := s) (i := 1) (kind := kind) (fun h => absurd h.1 (by decide)) found
  rw [exec_transmitError_beat kind found h.1,
    countError_of_silenced (by rw [hcount]; exact (errored_state s.lc kind).trans hsilent)
      (fun hs => hstate ((errorOver_state s.lc).symm.trans hs)),
    enterSilent_eq (s := s) (i := 1) (found := found) (by rw [hkept]; exact clearClaim_lc s _)]
  · rw [heldPlays_countTransmitError, heldPlays_empty _ (by decide), heldPlays_errorOver]
    rfl
  · dsimp only
    rw [hcount, if_neg fun h => absurd h.2.2 (by decide), ← errored_txDrop s.lc kind]
    rfl

/-- The link controller that the error in a shared frame leaves, its counts raised. -/
theorem sharedError_frames (lc : Link) {i : Fin 4} (hi : 2 ≤ i.val) (f : Frame) (fails : Nat) (kind : ErrKind) :
    ∃ slots outq, (sharedError lc i ⟨f, true, fails⟩ kind).1 = { lc with
      slots := slots, outq := outq
      txDrop := if kind = .ack ∧ 7 ≤ fails ∧ 2 ≤ i.val then min 65535 (lc.txDrop + 1) else lc.txDrop } := by
  by_cases hdrop : kind = .ack ∧ 7 ≤ fails
  · obtain ⟨rfl, hfails⟩ := hdrop
    refine ⟨(lc.emptied i).slots, (lc.emptied i).outq, ?_⟩
    rw [sharedError_dropped lc i _ hfails, if_pos ⟨rfl, hfails, hi⟩, emptied_frame]
    rfl
  · have hretry : kind ≠ .ack ∨ fails < 7 := by
      by_cases hack : kind = .ack
      · exact .inr (Nat.not_lt.mp fun hlong => hdrop ⟨hack, by omega⟩)
      · exact .inl hack
    refine ⟨(lc.returnShared i ⟨f, true, fails⟩ (if kind = .ack then fails + 1 else 0)).slots,
      (lc.returnShared i ⟨f, true, fails⟩ (if kind = .ack then fails + 1 else 0)).outq, ?_⟩
    have hno : ¬ (kind = .ack ∧ 7 ≤ fails ∧ 2 ≤ i.val) := fun h => hdrop ⟨h.1, h.2.1⟩
    rw [sharedError_returned lc i _ hretry, if_neg hno]
    exact returnShared_frame lc i _ _

theorem silenced_by_shared (hi : 2 ≤ i.val) (h : Pre.silencing s i f fails kind) :
    ∃ plays, plays.Perm s.lc.heldPlays ∧
      exec (.transmitError kind found) s = .next (giveUp (silenced s i fails kind found) plays) := by
  obtain ⟨hstate, hsilent⟩ := stateAfter_of_silencing h
  have hkept := ackDecided_of_other (s := s) (i := i) (kind := kind) (fun h => ne_zero_of_shared hi h.1) found
  have hslot : s.lc.errorOver.slots.get i = some ⟨f, true, fails⟩ := by
    rw [errorOver_slots]
    exact h.1.2
  have hplays := heldPlays_sharedError hi hslot kind
  obtain ⟨slots, outq, hframes⟩ := sharedError_frames s.lc.errorOver hi f fails kind
  have hcount : (sharedError s.lc.errorOver i ⟨f, true, fails⟩ kind).1.countTransmitError kind =
      { errored s.lc kind with
        slots := slots, outq := outq
        txDrop := if kind = .ack ∧ 7 ≤ fails ∧ 2 ≤ i.val then min 65535 (s.lc.txDrop + 1) else s.lc.txDrop } := by
    rw [hframes, countTransmitError_of_same (lc := s.lc) hstate, errored_eq, errorOver_txDrop]
    · rfl
    · exact errorOver_state s.lc
    · exact errorOver_tec s.lc
    · exact errorOver_rec s.lc
  refine ⟨_, hplays.trans (.of_eq (heldPlays_errorOver s.lc)), ?_⟩
  rw [exec_transmitError_shared kind found hi h.1,
    countError_of_silenced (by rw [hcount]; exact (errored_state s.lc kind).trans hsilent)
      (by rw [hframes]; exact fun hs => hstate ((errorOver_state s.lc).symm.trans hs)),
    enterSilent_eq (s := s) (i := i) (fails := fails) (found := found) (by rw [hkept]; exact clearClaim_lc s _),
    heldPlays_countTransmitError]
  dsimp only
  rw [hcount]
  rfl

/-- An error that silences the station gives up the play changes of every frame held, in some order. -/
theorem exec_silencing (h : Pre.silencing s i f fails kind) :
    ∃ plays, plays.Perm s.lc.heldPlays ∧
      exec (.transmitError kind found) s = .next (giveUp (silenced s i fails kind found) plays) := by
  obtain rfl | rfl | hi := slot_cases i
  · exact ⟨_, .refl _, silenced_by_claim found h⟩
  · exact ⟨_, .refl _, silenced_by_beat found h⟩
  · exact silenced_by_shared found hi h

end Silencing

/-! ### The play changes taken in a free order (R12, R172) -/

theorem freePerm_perm {α : Type} (fuel : Nat) : ∀ (picks : Nat) (l : List α), (freePerm picks fuel l).Perm l := by
  induction fuel with
  | zero => exact fun _ l => .refl l
  | succ fuel ih =>
    intro picks l
    unfold freePerm
    dsimp only
    split
    next x hx =>
      obtain ⟨hlt, hget⟩ := List.getElem?_eq_some_iff.mp hx
      refine ((ih _ _).cons x).trans ?_
      have hsplit := List.take_append_drop (Config.freeOrder picks % l.length) l
      rw [List.drop_eq_getElem_cons hlt, hget] at hsplit
      rw [List.eraseIdx_eq_take_drop_succ]
      exact List.perm_middle.symm.trans (.of_eq hsplit)
    next => exact .refl l

/-- A change of the play state leaves the loader. -/
theorem playChange_sl (s : State) (k : PlayFrame) : (playChange s k).sl = s.sl := by
  by_cases hrun : s.sl.station = .run
  · rw [playChange_of_run hrun]
    split
    · split
      · rfl
      · rw [coilWork_select]
        rfl
    · obtain ⟨fl, lp, heffects, -⟩ := playEffects_eq (playSet s k) s.pc.state (k.next s.pc.state)
      rw [coilWork_select, heffects]
      dsimp only
      rw [coilWork_gateOutputs]
      rfl
  · rw [playChange, if_neg hrun]

/-- One step of what is given up. -/
def giveUpStep (s : State) (x : Option PlayFrame) : State :=
  match x with
  | some k => playChange s k
  | none => select s

theorem foldl_giveUp (j : Fin 63) (l : List (Option PlayFrame)) : ∀ s : State, s.sl.station = .run →
    Pre.number s.own j → l.foldl giveUpStep s = (l.map (Option.map playCode)).foldl (givenUp j) s := by
  induction l with
  | nil => exact fun _ _ _ => rfl
  | cons x rest ih =>
    intro s hrun hown
    have hsl : (giveUpStep s x).sl = s.sl := by
      cases x with
      | none =>
        show (select s).sl = s.sl
        rw [coilWork_select]
      | some k => exact playChange_sl s k
    have hstep : giveUpStep s x = givenUp j s (x.map playCode) := by
      cases x with
      | none => rfl
      | some k => exact playChange_eq hrun hown k
    rw [List.foldl_cons, ih _ (by rw [hsl]; exact hrun) (by rw [State.own, hsl]; exact hown), hstep]
    rfl

theorem giveUp_of_ne {s : State} {plays : List PlayFrame} (h : plays ≠ []) :
    ∃ (order : List (Option PlayFrame)) (p : Nat), order.Perm (none :: plays.map some) ∧
      giveUp s plays = order.foldl giveUpStep { s with picks := p } :=
  ⟨_, _, freePerm_perm _ s.picks _, if_neg h⟩

theorem silenced_sl (s : State) (i : Fin 4) (fails : Nat) (kind : ErrKind) (found : Tick) :
    (silenced s i fails kind found).sl = s.sl := by
  have hdecided (c : Claim) : (afterDecision s c found).sl = s.sl := by
    unfold afterDecision
    dsimp only
    split
    · rfl
    · split <;> rfl
  show (claimReturned (ackDecided s i kind found)).sl = s.sl
  rw [← clearClaim_eq_claimReturned, coilWork_clearClaim]
  show (ackDecided s i kind found).sl = s.sl
  unfold ackDecided
  split
  · split
    · exact hdecided _
    · rfl
  · rfl

/-- Settles O38: the entry to SILENT. -/
theorem silentClearsEverySlot : Obligations.SilentClearsEverySlot := by
  refine ⟨?none, ?plays⟩
  case none =>
    intro s i f fails kind found h hnone
    obtain ⟨plays, hperm, hexec⟩ := exec_silencing found h
    have hheld : s.lc.heldPlays = [] := List.map_eq_nil_iff.mp ((playsHeld_eq s.lc).symm.trans hnone)
    rw [hheld] at hperm
    rw [hexec, List.Perm.eq_nil hperm]
    exact congrArg Host.Outcome.next (if_pos rfl)
  case plays =>
    intro s i f fails kind found j h hsome hrun hown
    obtain ⟨plays, hperm, hexec⟩ := exec_silencing found h
    have hne : plays ≠ [] := by
      rintro rfl
      exact hsome (by rw [playsHeld_eq, List.Perm.eq_nil hperm.symm]; rfl)
    obtain ⟨order, p, horder, hgive⟩ := giveUp_of_ne (s := silenced s i fails kind found) hne
    have hsl := silenced_sl s i fails kind found
    refine ⟨order.map (Option.map playCode), p, ?_, ?_⟩
    · refine (horder.map _).trans ?_
      rw [List.map_cons, List.map_map, playsHeld_eq, List.map_map]
      exact (hperm.map _).cons _
    · rw [hexec, hgive, foldl_giveUp j]
      · rw [show ({ silenced s i fails kind found with picks := p } : State).sl = s.sl from hsl]
        exact hrun
      · rw [State.own, show ({ silenced s i fails kind found with picks := p } : State).sl = s.sl from hsl]
        exact hown

end Sys2Proof.Proofs
end

section
/-! The STOP pattern: what the link controller cuts short, and the table stop that follows (O40). -/

namespace Sys2Proof.Proofs
open Sys2Proof.Machine

/-! ### Frames cut short (R145, R153) -/

theorem endedBefore_iff (lc : Link) : EndedBefore lc ↔ lc.endedBeforeRun = true := by
  unfold EndedBefore Link.endedBeforeRun Link.errorBeforeRun
  cases lc.err with
  | none => simp
  | some e => cases hrec : e.recessive <;> simp [hrec, Option.filter]

theorem claimCut_eq_true_iff (lc : Link) : lc.claimCut = true ↔ ClaimCut lc := by
  rw [claimCut_iff]
  unfold ClaimCut
  rw [endedBefore_iff, Bool.not_eq_true]
  exact ⟨fun ⟨sl, hsl, hwire, hended⟩ => ⟨hended, sl, hsl, hwire⟩,
    fun ⟨hended, sl, hsl, hwire⟩ => ⟨sl, hsl, hwire, hended⟩⟩

/-- No frame of slot i is ON WIRE. -/
def Quiet (lc : Link) (i : Fin 4) : Prop := ∀ sl ∈ lc.slots.get i, sl.onWire = false

theorem cutShort_of_quiet {lc : Link} {i : Fin 4} (h : Quiet lc i) : lc.cutShort i = lc := by
  unfold Link.cutShort
  split
  next sl hsl => simp [h sl hsl]
  next => rfl

theorem cutShort_of_shared {lc : Link} {i : Fin 4} (hi : 2 ≤ i.val) {f : Frame} {fails : Nat}
    (h : lc.slots.get i = some ⟨f, true, fails⟩) : lc.cutShort i = lc.returnShared i ⟨f, true, fails⟩ fails := by
  unfold Link.cutShort
  rw [h]
  exact (if_pos rfl).trans (if_neg (by omega))

theorem cutShort_frame (lc : Link) (i : Fin 4) :
    lc.cutShort i = { lc with slots := (lc.cutShort i).slots, outq := (lc.cutShort i).outq } := by
  unfold Link.cutShort
  split
  · split
    · split
      · rfl
      · exact returnShared_frame _ _ _ _
    · rfl
  · rfl

theorem allCutShort_frame (lc : Link) :
    lc.allCutShort = { lc with slots := lc.allCutShort.slots, outq := lc.allCutShort.outq } := by
  unfold Link.allCutShort
  split
  · rfl
  · rw [cutShort_frame, cutShort_frame ((lc.cutShort 0).cutShort 1), cutShort_frame (lc.cutShort 0),
      cutShort_frame lc]

/-- The queue moved up leaves slots 0 and 1. -/
theorem advanced_get_low (lc : Link) {i : Fin 4} (hi : i.val ≤ 1) : (advanced lc).slots.get i = lc.slots.get i := by
  have h2 : i ≠ 2 := by
    rintro rfl
    exact absurd hi (by decide)
  have h3 : i ≠ 3 := by
    rintro rfl
    exact absurd hi (by decide)
  unfold advanced
  repeat' split
  all_goals simp only [Bank.get_set, h2, h3, if_false]

theorem returnShared_get_low (lc : Link) {i j : Fin 4} (hi : i.val ≤ 1) (hj : 2 ≤ j.val) (sl : Slot) (fails : Nat) :
    (lc.returnShared j sl fails).slots.get i = lc.slots.get i := by
  have hne : i ≠ j := by
    rintro rfl
    omega
  unfold Link.returnShared
  split
  · rw [refill_eq_advanced, advanced_get_low _ hi]
    exact Bank.get_set_ne _ _ hne
  · exact Bank.get_set_ne _ _ hne

theorem cutShort_get_low (lc : Link) {i j : Fin 4} (hi : i.val ≤ 1) (hne : i ≠ j) :
    (lc.cutShort j).slots.get i = lc.slots.get i := by
  unfold Link.cutShort
  split
  · split
    · split
      · exact Bank.get_set_ne _ _ hne
      next hj => exact returnShared_get_low lc hi (by omega) _ _
    · rfl
  · rfl

/-- A frame of slot 0 or 1 that is cut short is gone. -/
theorem cutShort_get_self (lc : Link) {i : Fin 4} (hi : i.val ≤ 1) :
    (lc.cutShort i).slots.get i = if ∃ sl ∈ lc.slots.get i, sl.onWire = true then none else lc.slots.get i := by
  unfold Link.cutShort
  cases h : lc.slots.get i with
  | none => simp [h]
  | some sl =>
    cases hwire : sl.onWire with
    | false => simp [h, hwire]
    | true =>
      have hlow : i.val < 2 := by omega
      simp [hwire, hlow, get_empty]

theorem get_of_empty_ne {lc : Link} {i j : Fin 4} (h : j ≠ i) : (lc.empty i).slots.get j = lc.slots.get j :=
  Bank.get_set_ne _ _ h

/-- Slots 0 and 1 cut short leave the shared slots and the queue. -/
theorem cutShort_low (lc : Link) {i : Fin 4} (hi : i.val ≤ 1) :
    (lc.cutShort i).outq = lc.outq ∧ ∀ j : Fin 4, 2 ≤ j.val → (lc.cutShort i).slots.get j = lc.slots.get j := by
  have hkept : (lc.cutShort i) = lc ∨ lc.cutShort i = lc.empty i := by
    unfold Link.cutShort
    split
    · split
      · exact .inr (if_pos (by omega))
      · exact .inl rfl
    · exact .inl rfl
  obtain h | h := hkept
  · rw [h]
    exact ⟨rfl, fun _ _ => rfl⟩
  · rw [h]
    refine ⟨rfl, fun j hj => get_of_empty_ne ?_⟩
    rintro rfl
    omega

/-- A frame that the queue moves up is WAITING. -/
theorem advanced_waiting (lc : Link) (i : Fin 4) :
    ∀ sl ∈ (advanced lc).slots.get i, sl ∈ lc.slots.get i ∨ sl.onWire = false := by
  intro sl
  have hset (b : Bank (Option Slot) 4) (j : Fin 4) (f : Frame) (hb : sl ∈ b.get i → sl ∈ lc.slots.get i ∨ sl.onWire = false)
      (h : sl ∈ (b.set j (some ⟨f, false, 0⟩)).get i) : sl ∈ lc.slots.get i ∨ sl.onWire = false := by
    rw [Bank.get_set] at h
    split at h
    · exact .inr (by rw [← Option.some.inj h])
    · exact hb h
  unfold advanced
  split
  · exact hset _ _ _ (hset _ _ _ .inl)
  · exact hset _ _ _ .inl
  · exact hset _ _ _ .inl
  · exact .inl

theorem returnShared_quiet {lc : Link} {i j : Fin 4} (hj : Quiet lc j) (hne : j ≠ i) (sl : Slot) (fails : Nat) :
    Quiet (lc.returnShared i sl fails) j := by
  unfold Link.returnShared
  split
  · rw [refill_eq_advanced]
    intro x hx
    obtain h | h := advanced_waiting (lc.empty i) j x hx
    · rw [get_of_empty_ne hne] at h
      exact hj x h
    · exact h
  · intro x hx
    rw [show (Bank.set lc.slots i _).get j = lc.slots.get j from Bank.get_set_ne _ _ hne] at hx
    exact hj x hx

/-! ### The slots at the STOP pattern (R153) -/

section Cut

variable {lc : Link} (hended : lc.endedBeforeRun = false)

include hended

theorem allCutShort_eq : lc.allCutShort = (((lc.cutShort 0).cutShort 1).cutShort 2).cutShort 3 := by
  rw [Link.allCutShort, hended]
  rfl

theorem allCutShort_low {i : Fin 4} (hi : i.val ≤ 1) : lc.allCutShort.slots.get i =
    if ∃ sl ∈ lc.slots.get i, sl.onWire = true then none else lc.slots.get i := by
  rw [allCutShort_eq hended]
  obtain rfl | rfl : i = 0 ∨ i = 1 := by omega
  · rw [cutShort_get_low _ hi (by decide), cutShort_get_low _ hi (by decide), cutShort_get_low _ hi (by decide),
      cutShort_get_self _ hi]
  · rw [cutShort_get_low _ hi (by decide), cutShort_get_low _ hi (by decide), cutShort_get_self _ hi,
      cutShort_get_low _ hi (by decide)]

/-- With no shared frame ON WIRE, the shared slots and the queue are left. -/
theorem allCutShort_of_quiet (h : ∀ i : Fin 4, 2 ≤ i.val → Quiet lc i) :
    lc.allCutShort.outq = lc.outq ∧ ∀ i : Fin 4, 2 ≤ i.val → lc.allCutShort.slots.get i = lc.slots.get i := by
  obtain ⟨hqueue0, hslots0⟩ := cutShort_low lc (i := 0) (by decide)
  obtain ⟨hqueue1, hslots1⟩ := cutShort_low (lc.cutShort 0) (i := 1) (by decide)
  have hquiet (i : Fin 4) (hi : 2 ≤ i.val) : Quiet ((lc.cutShort 0).cutShort 1) i := by
    unfold Quiet
    rw [hslots1 i hi, hslots0 i hi]
    exact h i hi
  rw [allCutShort_eq hended, cutShort_of_quiet (hquiet 2 (by decide)), cutShort_of_quiet (hquiet 3 (by decide))]
  exact ⟨hqueue1.trans hqueue0, fun i hi => (hslots1 i hi).trans (hslots0 i hi)⟩

/-- The one frame ON WIRE is a shared one, and it alone is cut short. -/
theorem allCutShort_of_shared {i : Fin 4} {f : Frame} {fails : Nat} (hi : 2 ≤ i.val)
    (h : lc.slots.get i = some ⟨f, true, fails⟩) (hquiet : ∀ j, j ≠ i → Quiet lc j) :
    lc.allCutShort = lc.returnShared i ⟨f, true, fails⟩ fails := by
  have hne (j : Fin 4) (hj : j.val ≤ 1) : j ≠ i := by
    rintro rfl
    omega
  rw [allCutShort_eq hended, cutShort_of_quiet (hquiet 0 (hne 0 (by decide))),
    cutShort_of_quiet (hquiet 1 (hne 1 (by decide)))]
  obtain rfl | rfl : i = 2 ∨ i = 3 := by omega
  · rw [cutShort_of_shared hi h, cutShort_of_quiet (returnShared_quiet (hquiet 3 (by decide)) (by decide) _ _)]
  · rw [cutShort_of_quiet (hquiet 2 (by decide)), cutShort_of_shared hi h]

end Cut

theorem stopRecognised_read (lc : Link) : StopRead lc lc.stopRecognised := by
  have hslots : lc.stopRecognised.slots = lc.allCutShort.slots := rfl
  have hqueue : lc.stopRecognised.outq = lc.allCutShort.outq := rfl
  refine ⟨?_, fun hended => ?_, fun hended => ?_⟩
  · rw [hslots, hqueue]
    unfold Link.stopRecognised Link.errorBeforeRun
    rw [allCutShort_frame]
    cases lc.err <;> rfl
  · have hkept : lc.allCutShort = lc := if_pos ((endedBefore_iff lc).mp hended)
    rw [hslots, hqueue, hkept]
    exact ⟨rfl, rfl⟩
  · have hfalse : lc.endedBeforeRun = false := Bool.eq_false_iff.mpr fun h => hended ((endedBefore_iff lc).mpr h)
    rw [hslots, hqueue]
    refine ⟨fun i hi => allCutShort_low hfalse hi, allCutShort_of_quiet hfalse, fun i f fails hi hslot hquiet => ?_⟩
    rw [allCutShort_of_shared hfalse hi hslot hquiet]
    exact ⟨_, returnShared_retried lc i ⟨f, true, fails⟩ fails, rfl, rfl⟩

/-! ### The table stop -/

theorem exec_stopPattern {s : State} (h : s.lc.started = true) :
    exec .stopPattern s = .next (tableStop { s with
      lc := s.lc.stopRecognised
      db := { s.db with claim := if ClaimCut s.lc then none else s.db.claim } }) := by
  refine (if_pos h).trans (congrArg (fun t => Host.Outcome.next (tableStop t)) ?_)
  by_cases hcut : ClaimCut s.lc
  · rw [if_pos hcut, if_pos ((claimCut_eq_true_iff s.lc).mpr hcut)]
  · rw [if_neg hcut, if_neg fun hclaim => hcut ((claimCut_eq_true_iff s.lc).mp hclaim)]

/-- Settles O40: the STOP pattern in RUN, JOINING and UNCONFIGURED, and the ends of STOP and INTEGRATING. -/
theorem stopPatternStopsTheTable : Obligations.StopPatternStopsTheTable := by
  refine ⟨fun s hstarted hrun => ⟨_, stopRecognised_read s.lc, ?run⟩,
    fun s hstarted hjoin => ⟨_, stopRecognised_read s.lc, ?joining⟩,
    fun s hstarted hun hslot => ⟨_, stopRecognised_read s.lc, ?unconfigured⟩, fun _ => rfl,
    fun s hstarted hphase => if_pos ⟨hstarted, hphase⟩⟩
  case run =>
    rw [exec_stopPattern hstarted]
    exact congrArg _ (tableStop_eq hrun)
  case joining =>
    rw [exec_stopPattern hstarted]
    refine congrArg _ ((if_neg ?_).trans (if_pos hjoin))
    exact fun hrun => absurd (hjoin.symm.trans hrun) (by decide)
  case unconfigured =>
    have hcut : ¬ ClaimCut s.lc := by
      rintro ⟨-, sl, hsl, -⟩
      rw [hslot] at hsl
      cases hsl
    rw [exec_stopPattern hstarted, if_neg hcut]
    refine congrArg _ ((if_neg ?_).trans (if_neg ?_))
    · exact fun hrun => absurd (hun.symm.trans hrun) (by decide)
    · exact fun hjoin => absurd (hun.symm.trans hjoin) (by decide)

end Sys2Proof.Proofs
end

section
/-! The link bit by bit: what a bit of a frame turns out to be, what it does in each bus phase, what this station
drives, and what a bit of the link does as a whole (O41, O43). -/

namespace Sys2Proof.Proofs
open Sys2Proof.Machine

/-! ### A bit of a frame (R133–R136, R141) -/

theorem bit_of_field {p : Progress} (h : p.tail = none) (sent b : Bool) : p.bit sent b = fieldFinding p sent b := by
  have hstuff : p.stuffNext = true ↔ p.runLen = 6 := by simp [Progress.stuffNext, h]
  unfold Progress.bit fieldFinding
  rw [h]
  dsimp only
  by_cases hrun : p.runLen = 6
  · rw [if_pos (hstuff.mpr hrun), if_pos hrun]
    rfl
  · rw [if_neg fun hs => hrun (hstuff.mp hs), if_neg hrun]
    unfold Progress.fieldBit
    cases p.transmitting <;> cases sent <;> cases b <;> by_cases hplace : p.bits.length ≤ 14 <;> simp [hplace]

theorem bit_of_tail {p : Progress} {k : Nat} (h : p.tail = some k) (sent b : Bool) : p.bit sent b = tailFinding p k b := by
  unfold Progress.bit
  rw [h]
  rfl

/-! ### A frame read (R132, R137, R142) -/

theorem signalled_eq (s : State) : signalled s = { s with lc := s.lc.signal } := rfl

/-- What a finding at a bit of level `b` does to the station that reads the frame as `p`. -/
def frameFound (s : State) (p : Progress) (b : Bool) : BitFinding → State × List Instr
  | .goes q => ({ s with lc := { s.lc with rx := some q } }, [])
  | .lost q => ({ s with lc := { s.lc with rx := some q } }, [.arbitrationLost])
  | .badCheck q => ({ s with lc := { s.lc with
      rx := some q, err := some ⟨.check, p.transmitting, s.tick, b⟩ } }, [])
  | .signal => ({ s with lc := s.lc.signal }, [])
  | .error kind => (s.finds kind p.transmitting b, [])
  | .complete => (s, [p.completed])

theorem phaseBit_of_reading {s : State} {p : Progress} (h : Pre.reading s p) (sent b : Bool) :
    phaseBit s sent b = frameFound s p b (p.bit sent b) := by
  obtain ⟨hphase, hrx, hown⟩ := h
  have hreads : ¬ (p.transmitting = true ∧ s.lc.overriding = true) := fun ⟨ht, ho⟩ => by
    rw [hown ht] at ho
    cases ho
  unfold phaseBit
  rw [hphase]
  dsimp only
  unfold frameBitTaken
  rw [hrx]
  dsimp only
  rw [if_neg hreads]
  cases p.bit sent b <;> rfl

/-! ### The bus phases (R132, R142, R145) -/

/-- The bus stays in its phase. -/
theorem busAt_of_phase {s : State} {phase : BusPhase} (h : s.lc.phase = phase) (n : Nat) :
    busAt s phase n = { s with lc := { s.lc with recRun := n } } := by
  subst h
  rfl

theorem startReceive_eq (s : State) : startReceive s = frameBegins s := rfl

theorem phaseBit_errorSignal {s : State} (h : s.lc.phase = .errorSignal) (sent b : Bool) :
    phaseBit s sent b = ({ s with lc := s.lc.signalBit }, []) := by
  unfold phaseBit
  rw [h]

theorem phaseBit_idle {s : State} (h : s.lc.phase = .idle) (sent b : Bool) :
    phaseBit s sent b = if s.lc.offers then if b then (startUnreached s, []) else (s, [.frameOffer])
      else if b then (s, []) else (startReceive s, []) := by
  unfold phaseBit
  rw [h]

theorem not_offers_of_silent {lc : Link} (h : lc.state = .silent) : lc.offers = false := by
  simp [Link.offers, Link.mayOffer, h]

/-- With no frame WAITING there is none to offer. -/
theorem not_offers_of_onWire {lc : Link} (h : ∀ (i : Fin 4), ∀ sl ∈ lc.slots.get i, sl.onWire = true) :
    lc.offers = false := by
  have hnone (i : Fin 4) : lc.waitingField i = none := by
    refine Option.eq_none_iff_forall_ne_some.mpr fun a ha => ?_
    obtain ⟨sl, hsl, hwire, -⟩ := waitingField_eq_some_iff.mp ha
    rw [h i sl hsl] at hwire
    cases hwire
  have hoffered : lc.offered = none := firstFin_eq_none_iff.mpr fun i => by rw [hnone i]
  simp [Link.offers, hoffered]

theorem busPhasesCount : BusPhasesCount := by
  refine ⟨?integrating, ?delimiter, ?interframe, ?idle, ?stop⟩
  case integrating =>
    intro s sent b h
    rw [busAt_of_phase h]
    unfold phaseBit
    rw [h]
    cases b <;> simp
  case delimiter =>
    intro s sent b h
    rw [busAt_of_phase h, busAt_of_phase h]
    unfold phaseBit
    rw [h]
    dsimp only
    cases b
    · rfl
    · by_cases hrun : s.lc.recRun = 7
      · simp [hrun, busAt]
      · simp [hrun]
  case interframe =>
    intro s sent b h
    rw [busAt_of_phase h]
    unfold phaseBit
    rw [h]
    dsimp only
    cases b
    · rfl
    · by_cases hrun : s.lc.recRun = 2
      · simp [hrun, busAt]
      · simp [hrun]
  case idle =>
    intro s sent b h hnone
    have hoffers : s.lc.offers = false := hnone.elim not_offers_of_silent not_offers_of_onWire
    rw [phaseBit_idle h, hoffers]
    cases b <;> rfl
  case stop =>
    intro s sent b h
    unfold phaseBit
    rw [h]
    cases b <;> rfl

/-! ### What this station drives (R137, R142, R144, R146, R150, R157) -/

theorem overriding_iff (lc : Link) : lc.overriding = true ↔ 0 < lc.stopLeft ∨ 0 < lc.resetLeft := by
  simp [Link.overriding]

theorem driveLevel_of_overriding {s : State} (h : s.lc.overriding = true) : driveLevel s = false := if_pos h

section Drive

variable {s : State} (hfree : s.lc.overriding = false)

include hfree

theorem driveLevel_of_unstarted (h : s.lc.started = false) : driveLevel s = true := by
  unfold driveLevel
  rw [hfree, h]
  rfl

theorem driveLevel_idle (hstarted : s.lc.started = true) (h : s.lc.phase = .idle) : driveLevel s = !s.lc.offers := by
  unfold driveLevel
  rw [hfree, hstarted, h]
  rfl

theorem driveLevel_errorSignal (hstarted : s.lc.started = true) (h : s.lc.phase = .errorSignal) :
    driveLevel s = !s.lc.signalDominant := by
  unfold driveLevel
  rw [hfree, hstarted, h]
  rfl

theorem driveLevel_sending {p : Progress} (hstarted : s.lc.started = true) (h : s.lc.phase = .frame)
    (hrx : s.lc.rx = some p) (ht : p.transmitting = true) : driveLevel s = s.lc.frameBit p := by
  unfold driveLevel
  rw [hfree, hstarted, h]
  dsimp only
  rw [hrx]
  dsimp only
  rw [ht]
  rfl

theorem driveLevel_receiving {p : Progress} (hstarted : s.lc.started = true) (h : s.lc.phase = .frame)
    (hrx : s.lc.rx = some p) (ht : p.transmitting = false) : driveLevel s = !s.acknowledges p := by
  unfold driveLevel
  rw [hfree, hstarted, h]
  dsimp only
  rw [hrx]
  dsimp only
  rw [ht]
  rfl

/-- A phase in which LC sends neither a frame nor a signal. -/
theorem driveLevel_still (hstarted : s.lc.started = true) (h : s.lc.phase = .integrating ∨ s.lc.phase = .interframe ∨
    s.lc.phase = .errorDelimiter ∨ s.lc.phase = .stop) : driveLevel s = true := by
  unfold driveLevel
  rw [hfree, hstarted]
  obtain h | h | h | h := h <;> rw [h] <;> rfl

end Drive

theorem acknowledges_iff (s : State) (p : Progress) : s.acknowledges p = true ↔
    p.tail = some 1 ∧ p.checkBad = false ∧ s.lc.state ≠ .silent ∧
      (s.sl.station = .joining ∨ s.sl.station = .run ∨ s.sl.station = .unconfigured) := by
  unfold State.acknowledges State.viewing
  simp [and_assoc, or_assoc]

theorem silentDrivesNothing : SilentDrivesNothing := by
  intro s hsilent hfree hsending hsignal
  by_cases hstarted : s.lc.started = true
  · cases hphase : s.lc.phase with
    | idle => rw [driveLevel_idle hfree hstarted hphase, not_offers_of_silent hsilent]; rfl
    | errorSignal =>
      rw [driveLevel_errorSignal hfree hstarted hphase, Link.signalDominant]
      by_cases hfirst : s.lc.sigLeft = Config.signalBits
      · rw [if_pos hfirst, hsilent]
        rfl
      · rw [if_neg hfirst, hsignal.resolve_left hfirst]
        rfl
    | frame =>
      cases hrx : s.lc.rx with
      | none =>
        unfold driveLevel
        rw [hfree, hstarted, hphase]
        dsimp only
        rw [hrx]
        rfl
      | some p =>
        have hack : ¬ s.acknowledges p = true := fun h => ((acknowledges_iff s p).mp h).2.2.1 hsilent
        rw [driveLevel_receiving hfree hstarted hphase hrx (hsending p hrx), Bool.eq_false_iff.mpr hack]
        rfl
    | integrating => exact driveLevel_still hfree hstarted (.inl hphase)
    | interframe => exact driveLevel_still hfree hstarted (.inr (.inl hphase))
    | errorDelimiter => exact driveLevel_still hfree hstarted (.inr (.inr (.inl hphase)))
    | stop => exact driveLevel_still hfree hstarted (.inr (.inr (.inr hphase)))
  · exact driveLevel_of_unstarted hfree (by simpa using hstarted)

theorem offers_of_offer {s : State} {i : Fin 4} {f : Frame} {fails : Nat} (h : Pre.offer s i f fails) :
    s.lc.offers = true := by
  have hoffered := offered_eq h
  obtain ⟨hstarted, hphase, hstate, hstop, hreset, -⟩ := h
  simp [Link.offers, Link.mayOffer, hstarted, hphase, hstate, hstop, hreset, hoffered]

theorem bitsAreDriven : BitsAreDriven := by
  refine ⟨fun s h => driveLevel_of_overriding ((overriding_iff s.lc).mpr h), ?offer, ?receive, ?still⟩
  case offer =>
    intro s i f fails h
    have hoffers := offers_of_offer h
    obtain ⟨hstarted, hphase, hstate, hstop, hreset, -⟩ := h
    have hfree : s.lc.overriding = false := by simp [Link.overriding, hstop, hreset]
    rw [driveLevel_idle hfree hstarted hphase, hoffers]
    rfl
  case receive =>
    intro s p hstarted hfree hphase hrx ht
    rw [driveLevel_receiving hfree hstarted hphase hrx ht, ← acknowledges_iff, Bool.not_eq_false']
  case still =>
    intro s hfree h
    by_cases hstarted : s.lc.started = true
    · exact driveLevel_still hfree hstarted (h.resolve_left (by simp [hstarted]))
    · exact driveLevel_of_unstarted hfree (by simpa using hstarted)

/-! ### A bit taken (R143, R145, R159) -/

theorem settle_eq (lc : Link) (b : Bool) :
    lc.settle b = ({ lc with err := if b then none else lc.err }, settledBy lc b) := by
  unfold Link.settle settledBy
  cases herr : lc.err with
  | none =>
    have hkept (x : Bool) : lc = { lc with err := if x then none else lc.err } := by cases x <;> simp [← herr]
    cases b
    · exact congrArg (·, []) (herr ▸ hkept false)
    · exact congrArg (·, []) (hkept true)
  | some e => cases b <;> simp [FoundError.command, ← herr]

theorem recover_frame (lc : Link) (b : Bool) : lc.recover b =
    { lc with partialRun := (lc.recover b).partialRun, recovery := (lc.recover b).recovery } := by
  unfold Link.recover
  repeat' split
  all_goals rfl

theorem bitsAreRead : BitsAreRead := by
  intro s sent b
  have hsettled : (s.lc.recover b).settle b =
      ({ s.lc.recover b with err := if b then none else s.lc.err }, settledBy s.lc b) := by
    have herr : (s.lc.recover b).err = s.lc.err := by rw [recover_frame]
    rw [settle_eq, herr]
    unfold settledBy
    rw [herr]
  have hrun : ({ s.lc.recover b with err := if b then none else s.lc.err } : Link).dominantRun b =
      if b then 0 else min (s.lc.domRun + 1) 25 := by
    have hdom : (s.lc.recover b).domRun = s.lc.domRun := by rw [recover_frame]
    unfold Link.dominantRun
    rw [show ({ s.lc.recover b with err := if b then none else s.lc.err } : Link).domRun = s.lc.domRun from hdom]
    rfl
  have hstop : b = false ∧ (if b then 0 else min (s.lc.domRun + 1) 25) = Config.stopSeen ↔
      b = false ∧ s.lc.domRun = 23 := by
    cases b
    · simp [Config.stopSeen]
      omega
    · simp
  unfold readBit
  rw [hsettled]
  dsimp only
  rw [hrun]
  simp only [hstop]
  rfl

/-! ### What a bit leaves of the link controller -/

/-- A bit read leaves SILENT's recovery count, the link state and what is driven over the bus. -/
def CountsKept (lc lc' : Link) : Prop :=
  lc'.recovery = lc.recovery ∧ lc'.partialRun = lc.partialRun ∧ lc'.stopLeft = lc.stopLeft ∧
    lc'.resetLeft = lc.resetLeft

theorem countsKept_finds (s : State) (kind : ErrKind) (transmit b : Bool) :
    CountsKept s.lc (s.finds kind transmit b).lc := by
  show CountsKept s.lc { s.lc.signal with err := _ }
  unfold Link.signal
  split <;> exact ⟨rfl, rfl, rfl, rfl⟩

theorem countsKept_offerFrame (s : State) : CountsKept s.lc (offerFrame s).lc := by
  unfold offerFrame
  repeat' split
  all_goals exact ⟨rfl, rfl, rfl, rfl⟩

theorem countsKept_cutFrameBit (s : State) (b : Bool) : CountsKept s.lc (cutFrameBit s b).lc := by
  unfold cutFrameBit
  split
  · split
    · exact countsKept_finds s _ _ _
    · exact ⟨rfl, rfl, rfl, rfl⟩
  · exact ⟨rfl, rfl, rfl, rfl⟩

theorem command_ne_recovery (p : Progress) : p.command ≠ .recoveryComplete := by
  unfold Progress.command
  dsimp only
  split <;> nofun

theorem completed_ne_recovery (p : Progress) : p.completed ≠ .recoveryComplete := by
  unfold Progress.completed
  split
  · nofun
  · exact command_ne_recovery p

/-- What a bit of a frame does beside the counts. -/
theorem frameBitTaken_keeps (s : State) (sent b : Bool) :
    CountsKept s.lc (frameBitTaken s sent b).1.lc ∧ .recoveryComplete ∉ (frameBitTaken s sent b).2 := by
  have hkept : CountsKept s.lc s.lc := ⟨rfl, rfl, rfl, rfl⟩
  unfold frameBitTaken
  split
  · exact ⟨countsKept_cutFrameBit s b, by simp⟩
  split
  · exact ⟨countsKept_cutFrameBit s b, by simp⟩
  split
  · exact ⟨hkept, by simp⟩
  · exact ⟨hkept, by simp⟩
  · exact ⟨hkept, by simp⟩
  · refine ⟨?_, by simp⟩
    show CountsKept s.lc s.lc.signal
    unfold Link.signal
    split <;> exact ⟨rfl, rfl, rfl, rfl⟩
  · exact ⟨countsKept_finds s _ _ _, by simp⟩
  next p _ _ _ _ => exact ⟨hkept, by simp [(completed_ne_recovery p).symm]⟩

theorem phaseBit_keeps (s : State) (sent b : Bool) :
    CountsKept s.lc (phaseBit s sent b).1.lc ∧ .recoveryComplete ∉ (phaseBit s sent b).2 := by
  have hkept : CountsKept s.lc s.lc := ⟨rfl, rfl, rfl, rfl⟩
  unfold phaseBit
  split
  case h_1 => exact ⟨hkept, by dsimp only; split <;> simp⟩
  case h_2 =>
    split
    · split
      · obtain ⟨h1, h2, h3, h4⟩ := countsKept_offerFrame s
        obtain ⟨k1, k2, k3, k4⟩ := countsKept_finds (offerFrame s) .bit true true
        exact ⟨⟨k1.trans h1, k2.trans h2, k3.trans h3, k4.trans h4⟩, by simp⟩
      · exact ⟨hkept, by simp⟩
    · split <;> exact ⟨hkept, by simp⟩
  case h_3 =>
    split
    · split <;> exact ⟨hkept, by simp⟩
    · exact ⟨hkept, by simp⟩
  case h_4 =>
    refine ⟨?_, by simp⟩
    show CountsKept s.lc s.lc.signalBit
    unfold Link.signalBit
    split <;> exact ⟨rfl, rfl, rfl, rfl⟩
  case h_5 =>
    split
    · split <;> exact ⟨hkept, by simp⟩
    · exact ⟨hkept, by simp⟩
  case h_6 => split <;> exact ⟨hkept, by simp⟩
  case h_7 => exact frameBitTaken_keeps s sent b

theorem readBit_keeps (s : State) (sent b : Bool) : CountsKept (s.lc.recover b) (readBit s sent b).1.lc := by
  rw [bitsAreRead s sent b]
  dsimp only
  split
  · exact ⟨rfl, rfl, rfl, rfl⟩
  · exact (phaseBit_keeps (bitCounted s b) sent b).1

theorem settledBy_ne_recovery (lc : Link) (b : Bool) : .recoveryComplete ∉ settledBy lc b := by
  unfold settledBy
  split
  · split <;> simp
  · simp

theorem recover_recessive {lc : Link} (h : lc.state = .silent) :
    lc.recover true = if 11 ≤ lc.partialRun then { lc with partialRun := 0, recovery := lc.recovery + 1 }
      else { lc with partialRun := lc.partialRun + 1 } := by
  unfold Link.recover
  rw [if_pos h]
  rfl

theorem recover_dominant {lc : Link} (h : lc.state = .silent) : lc.recover false = { lc with partialRun := 0 } := by
  unfold Link.recover
  rw [if_pos h]
  rfl

/-- The 64th sequence ends at this bit. -/
theorem recovered_iff {lc : Link} (hcount : lc.recovery ≤ 63) (hrun : lc.partialRun ≤ 11) (b : Bool) :
    (lc.recover b).state = .silent ∧ (lc.recover b).recovery = 64 ↔
      b = true ∧ lc.state = .silent ∧ lc.recovery = 63 ∧ lc.partialRun = 11 := by
  have hstate : (lc.recover b).state = lc.state := by rw [recover_frame]
  rw [hstate]
  by_cases hsilent : lc.state = .silent
  · cases b
    · rw [recover_dominant hsilent]
      simp
      omega
    · rw [recover_recessive hsilent]
      split <;> simp [hsilent] <;> omega
  · simp [hsilent]

theorem recoveryCounts : RecoveryCounts := by
  refine ⟨fun lc b h => if_neg h, fun lc h => recover_dominant h, fun lc h hrun => ?_, fun lc h hrun => ?_,
    fun s sent b hcount hrun => ?_⟩
  · rw [recover_recessive h, if_neg (by omega)]
  · rw [recover_recessive h, if_pos (by omega)]
  · obtain ⟨hrecovery, hpartial, -⟩ := readBit_keeps s sent b
    refine ⟨hrecovery, hpartial, ?_⟩
    have hphase := (phaseBit_keeps (bitCounted s b) sent b).2
    have hsettled := settledBy_ne_recovery s.lc b
    have hdone := recovered_iff hcount hrun b
    rw [bitsAreRead s sent b]
    dsimp only
    split
    next hstop => simp [hstop.1]
    next =>
      rw [← hdone]
      simp only [List.mem_append, hphase, hsettled, false_or, or_false]
      show _ ∈ (if (s.lc.recover b).state = .silent ∧ (s.lc.recover b).recovery = 64 then _ else _) ↔ _
      split
      next h => exact iff_of_true (List.mem_singleton.mpr rfl) h
      next h => exact iff_of_false List.not_mem_nil h

/-! ### A bit of the link (R130, R144, R146) -/

theorem queueArisen_perm (s : State) (cs : List Instr) : ∃ (order : List Instr) (p : Nat),
    order.Perm cs ∧ queueArisen s cs = { s with pending := s.pending ++ order, picks := p } := by
  unfold queueArisen
  split
  · exact ⟨cs, s.picks, .refl cs, rfl⟩
  · exact ⟨_, _, freePerm_perm _ s.picks cs, rfl⟩

theorem queueArisen_one (s : State) (c : Instr) : queueArisen s [c] = { s with pending := s.pending ++ [c] } :=
  if_pos (Nat.le_refl 1)

theorem recover_keeps_drive (lc : Link) (b : Bool) :
    (lc.recover b).stopLeft = lc.stopLeft ∧ (lc.recover b).resetLeft = lc.resetLeft := by
  rw [recover_frame]
  exact ⟨rfl, rfl⟩

/-- What a station that takes part reads of the bit. -/
def bitRead (s : State) : State × List Instr :=
  if s.lc.started then
    readBit { s with bitDue := false, lines := { s.lines with linkIn := s.lines.linkIn.tail } } (driveLevel s)
      (s.lines.wire.level (driveLevel s))
  else ({ s with bitDue := false, lines := { s.lines with linkIn := s.lines.linkIn.tail } }, [])

theorem bitRead_keeps (s : State) : (bitRead s).1.pending = s.pending ∧
    (bitRead s).1.lc.stopLeft = s.lc.stopLeft ∧ (bitRead s).1.lc.resetLeft = s.lc.resetLeft := by
  unfold bitRead
  split
  · obtain ⟨-, -, hstop, hreset⟩ := readBit_keeps
      { s with bitDue := false, lines := { s.lines with linkIn := s.lines.linkIn.tail } } (driveLevel s)
        (s.lines.wire.level (driveLevel s))
    obtain ⟨kstop, kreset⟩ := recover_keeps_drive s.lc (s.lines.wire.level (driveLevel s))
    obtain ⟨lc, hlink, -⟩ := linkOnly_readBit
      { s with bitDue := false, lines := { s.lines with linkIn := s.lines.linkIn.tail } } (driveLevel s)
        (s.lines.wire.level (driveLevel s))
    exact ⟨by rw [hlink], hstop.trans kstop, hreset.trans kreset⟩
  · exact ⟨rfl, rfl, rfl⟩

theorem linkBit_eq (s : State) : linkBit s =
    queueArisen { (bitRead s).1 with lc := (bitRead s).1.lc.drove }
      ((bitRead s).2 ++ if s.lc.stopLeft = 1 then [.stopPatternEnd] else []) := rfl

theorem bitsAreTaken : BitsAreTaken := by
  intro s
  obtain ⟨hpending, hstop, hreset⟩ := bitRead_keeps s
  obtain ⟨order, p, hperm, hqueue⟩ := queueArisen_perm { (bitRead s).1 with lc := (bitRead s).1.lc.drove }
    ((bitRead s).2 ++ if s.lc.stopLeft = 1 then [.stopPatternEnd] else [])
  refine ⟨order, p, hperm, ?_⟩
  have hdrove : (bitRead s).1.lc.drove = { (bitRead s).1.lc with
      stopLeft := s.lc.stopLeft - 1, resetLeft := s.lc.resetLeft - 1 } := by
    rw [Link.drove, hstop, hreset]
  rw [linkBit_eq, hqueue, hdrove]
  show _ = { (bitRead s).1 with
    lc := { (bitRead s).1.lc with stopLeft := s.lc.stopLeft - 1, resetLeft := s.lc.resetLeft - 1 }
    pending := s.pending ++ order
    picks := p }
  rw [← hpending]

theorem level_eq_false_iff (w : Wire) (sent : Bool) :
    w.level sent = false ↔ w.dominant = true ∨ sent = false ∧ w.cut = false := by
  unfold Wire.level
  cases w.dominant <;> cases sent <;> cases w.cut <;> simp

/-- Settles O41: the 24th dominant bit in a row queues the STOP pattern's command. -/
theorem twentyFourDominantBitsAreTheStop : Obligations.TwentyFourDominantBitsAreTheStop := by
  intro s ⟨hstarted, hpending, hdue, hrun, hlevel, hstop, hnone⟩
  have hb : s.lines.wire.level (driveLevel s) = false := by
    refine (level_eq_false_iff _ _).mpr (hlevel.imp id fun ⟨hleft, hcut⟩ => ⟨?_, hcut⟩)
    exact driveLevel_of_overriding ((overriding_iff s.lc).mpr (.inl hleft))
  have hstep : step s = .next (linkBit s) := by
    unfold step idle dueNow
    rw [hpending, hdue, hnone]
    rfl
  have hread : bitRead s = (bitCounted
      { s with bitDue := false, lines := { s.lines with linkIn := s.lines.linkIn.tail } } false, [.stopPattern]) := by
    unfold bitRead
    rw [if_pos hstarted, hb, bitsAreRead]
    exact if_pos ⟨rfl, hrun⟩
  have hbit : linkBit s = { (bitRead s).1 with
      lc := (bitRead s).1.lc.drove, pending := (bitRead s).1.pending ++ [.stopPattern] } := by
    rw [linkBit_eq, if_neg hstop, List.append_nil, show (bitRead s).2 = [.stopPattern] by rw [hread]]
    exact queueArisen_one _ _
  refine ⟨_, hstep, ?_, ?_⟩
  · rw [hbit]
    show (bitRead s).1.pending ++ [.stopPattern] = [.stopPattern]
    rw [(bitRead_keeps s).1, hpending]
    rfl
  · rw [hbit]
    show (bitRead s).1.lc.domRun = 24
    rw [hread]
    show min (s.lc.domRun + 1) 25 = 24
    rw [hrun]
    rfl

/-! ### The errors of a frame (R133–R143) -/

theorem startUnreached_eq {s : State} {i : Fin 4} {f : Frame} {fails : Nat} (h : Pre.offer s i f fails) :
    startUnreached s = State.finds { s with lc := { s.lc with
      slots := s.lc.slots.set i (some ⟨f, true, fails⟩)
      phase := .frame
      rx := some ⟨true, s.tick, s.lp.phase, s.lp.beat, [false], false, 1, none, false⟩ } } .bit true true := by
  have hoffer := exec_frameOffer h
  have hmay : s.lc.mayOffer = true := by
    obtain ⟨hstarted, hphase, hstate, hstop, hreset, -⟩ := h
    simp [Link.mayOffer, hstarted, hphase, hstate, hstop, hreset]
  rw [show exec .frameOffer s = .next (offerFrame s) from if_pos hmay] at hoffer
  rw [startUnreached, Host.Outcome.next.inj hoffer]

/-- Settles O43: errors found, signalled and settled, and every bit of the link. -/
theorem linkErrorsAreFoundSignalledAndSettled : Obligations.LinkErrorsAreFoundSignalledAndSettled := by
  refine ⟨fun p sent b h => bit_of_field h sent b, fun p k sent b h => bit_of_tail h sent b, ?error, ?lost, ?badCheck,
    ?signal, ?complete, ?offer, ?signalLevel, ?signalBit, ?signalEnd, ?settle, level_eq_false_iff, busPhasesCount,
    silentDrivesNothing, recoveryCounts, bitsAreRead, bitsAreTaken, bitsAreDriven⟩
  case error =>
    intro s p sent b kind hreading hbit
    rw [phaseBit_of_reading hreading, hbit]
    rfl
  case lost =>
    intro s p q sent b hreading hbit
    rw [phaseBit_of_reading hreading, hbit]
    rfl
  case badCheck =>
    intro s p q sent b hreading hbit
    rw [phaseBit_of_reading hreading, hbit]
    rfl
  case signal =>
    intro s p sent b hreading hbit
    rw [phaseBit_of_reading hreading, hbit]
    rfl
  case complete =>
    intro s p sent b hreading hbit
    rw [phaseBit_of_reading hreading, hbit]
    rfl
  case offer =>
    intro s i f fails sent h
    have hoffers := offers_of_offer h
    have hstate : s.lc.state ≠ .silent := h.2.2.1
    refine ⟨?_, startUnreached s, ?_, ?_⟩
    · rw [phaseBit_idle h.2.1, hoffers]
      rfl
    · rw [phaseBit_idle h.2.1, hoffers]
      rfl
    · rw [startUnreached_eq h]
      unfold State.finds Link.signal
      dsimp only
      rw [if_neg hstate]
      exact ⟨rfl, rfl, rfl, rfl⟩
  case signalLevel => exact fun s hstarted hfree hphase => driveLevel_errorSignal hfree hstarted hphase
  case signalBit =>
    intro s sent b hphase hleft
    rw [phaseBit_errorSignal hphase, Link.signalBit, if_neg (by omega)]
    rfl
  case signalEnd =>
    intro s sent b hphase hleft
    rw [phaseBit_errorSignal hphase, Link.signalBit, if_pos hleft]
  case settle =>
    intro lc e h
    rw [settle_eq, settle_eq]
    unfold settledBy
    rw [h]
    refine ⟨?_, rfl⟩
    exact congrArg (·, []) (by rw [← h]; rfl)

end Sys2Proof.Proofs
end

section
/-! A frame put on the wire and read back: the fields as bits, the check, and the receiver in step with the
transmitter, bit by bit (O42). -/

namespace Sys2Proof.Proofs
open Sys2Proof.Machine

/-! ### Numbers as bits, the most significant first (R131) -/

theorem getD_of_lt {α : Type} {l : List α} {i : Nat} (h : i < l.length) {d : α} : l.getD i d = l[i] := by
  rw [List.getD_eq_getElem?_getD, List.getElem?_eq_getElem h, Option.getD_some]

@[simp] theorem bitsMsb_length (w n : Nat) : (bitsMsb w n).length = w := by
  induction w with
  | zero => rfl
  | succ w ih => rw [bitsMsb, List.length_cons, ih]

theorem bitsMsb_eq_msbFirst (w n : Nat) : bitsMsb w n = msbFirst w n := by
  unfold msbFirst
  induction w with
  | zero => rfl
  | succ w ih =>
    rw [bitsMsb, List.range_succ_eq_map, List.map_cons, List.map_map, ih, Nat.testBit_eq_decide_div_mod_eq]
    refine congrArg (List.cons _) (List.map_congr_left fun k _ => ?_)
    show _ = decide (n / 2 ^ (w + 1 - 1 - (k + 1)) % 2 = 1)
    rw [show w + 1 - 1 - (k + 1) = w - 1 - k by omega]

/-- Only the low bits of a number are shown. -/
theorem bitsMsb_congr {w n m : Nat} (h : ∀ i, i < w → n.testBit i = m.testBit i) : bitsMsb w n = bitsMsb w m := by
  induction w with
  | zero => rfl
  | succ w ih => rw [bitsMsb, bitsMsb, h w (by omega), ih fun i hi => h i (by omega)]

/-- Two fields side by side. -/
theorem bitsMsb_append (a b x y : Nat) (hy : y < 2 ^ b) :
    bitsMsb (a + b) (x * 2 ^ b + y) = bitsMsb a x ++ bitsMsb b y := by
  induction a with
  | zero =>
    rw [Nat.zero_add]
    refine bitsMsb_congr fun i hi => ?_
    rw [Nat.mul_comm, Nat.testBit_two_pow_mul_add _ hy, if_pos hi]
  | succ a ih =>
    rw [show a + 1 + b = (a + b) + 1 by omega, bitsMsb, ih, bitsMsb, List.cons_append, Nat.mul_comm,
      Nat.testBit_two_pow_mul_add _ hy, if_neg (by omega), Nat.add_sub_cancel]

theorem msbNum_foldl (bits : List Bool) : ∀ n,
    bits.foldl (fun n b => 2 * n + b.toNat) n = n * 2 ^ bits.length + msbNum bits := by
  unfold msbNum
  induction bits with
  | nil => simp
  | cons b rest ih =>
    intro n
    rw [List.foldl_cons, List.foldl_cons, ih, ih (2 * 0 + b.toNat), List.length_cons, Nat.pow_succ,
      Nat.add_mul, Nat.mul_zero, Nat.zero_add, Nat.add_assoc, Nat.mul_comm 2 n, Nat.mul_assoc, Nat.mul_comm 2]

theorem msbNum_bitsMsb (w n : Nat) : msbNum (bitsMsb w n) = n % 2 ^ w := by
  induction w with
  | zero => rw [Nat.pow_zero, Nat.mod_one]; rfl
  | succ w ih =>
    rw [msbNum, bitsMsb, List.foldl_cons, msbNum_foldl, bitsMsb_length, ih, Nat.testBit_eq_decide_div_mod_eq,
      Nat.pow_succ, Nat.mod_mul]
    rcases Nat.mod_two_eq_zero_or_one (n / 2 ^ w) with h | h
    · rw [h]
      show (2 * 0 + 0) * 2 ^ w + n % 2 ^ w = _
      omega
    · rw [h]
      show (2 * 0 + 1) * 2 ^ w + n % 2 ^ w = _
      omega

theorem msbNum_bitsMsb_of_lt {w n : Nat} (h : n < 2 ^ w) : msbNum (bitsMsb w n) = n := by
  rw [msbNum_bitsMsb, Nat.mod_eq_of_lt h]

/-! ### The bits of a frame (Table 8-1, R136) -/

theorem checkStep_eq (r : BitVec 16) (b : Bool) : checkStep r b = registerStep r b := by
  have hshift : r <<< 1 = BitVec.ofNat 16 (2 * r.toNat) := by
    apply BitVec.eq_of_toNat_eq
    rw [BitVec.toNat_shiftLeft, BitVec.toNat_ofNat, Nat.shiftLeft_eq, Nat.pow_one, Nat.mul_comm]
  have hmsb : r.getLsbD 15 = decide (2 ^ 15 ≤ r.toNat) := by
    have := r.isLt
    rw [BitVec.getLsbD, Nat.testBit_eq_decide_div_mod_eq]
    refine decide_eq_decide.mpr ?_
    omega
  unfold checkStep registerStep
  rw [hmsb, hshift]
  rfl

theorem checkOf_eq (bits : List Bool) : checkOf bits = registerAfter bits := by
  unfold checkOf registerAfter
  rw [show checkStep = registerStep from funext fun r => funext fun b => checkStep_eq r b]
  rfl

/-- The bits of the payload. -/
def payloadBits (payload : List Byte) : List Bool := payload.flatMap fun b => bitsMsb 8 b.toNat

theorem payloadBits_length (payload : List Byte) : (payloadBits payload).length = 8 * payload.length := by
  unfold payloadBits
  induction payload with
  | nil => rfl
  | cons b rest ih =>
    rw [List.flatMap_cons, List.length_append, ih, bitsMsb_length, List.length_cons]
    omega

theorem arbitration_bits (f : Frame) : bitsMsb 14 f.arbitration =
    bitsMsb 3 f.prio.toNat ++ (bitsMsb 5 f.kind.toNat ++ bitsMsb 6 f.source.toNat) := by
  have hkind := f.kind.isLt
  have hsource := f.source.isLt
  rw [← bitsMsb_append 5 6 _ _ hsource, ← bitsMsb_append 3 (5 + 6) _ _ (by omega)]
  refine congrArg (bitsMsb 14) ?_
  unfold Frame.arbitration
  omega

theorem covered_eq (f : Frame) : f.covered =
    bitsMsb 3 f.prio.toNat ++ (bitsMsb 5 f.kind.toNat ++ (bitsMsb 6 f.source.toNat ++ (false ::
      (bitsMsb 4 f.payload.length ++ payloadBits f.payload)))) := by
  unfold Frame.covered payloadBits
  rw [arbitration_bits, List.flatMap_def, List.append_assoc, List.append_assoc]

theorem covered_eq_coveredBits (f : Frame) : f.covered = coveredBits f := by
  rw [covered_eq]
  unfold coveredBits payloadBits
  simp [bitsMsb_eq_msbFirst]

theorem covered_length (f : Frame) : f.covered.length = 19 + 8 * f.payload.length := by
  simp [covered_eq, payloadBits_length]
  omega

theorem bits_eq (f : Frame) : f.bits = false :: (f.covered ++ bitsMsb 16 (checkOf f.covered).toNat) := rfl

theorem bits_length (f : Frame) : f.bits.length = 36 + 8 * f.payload.length := by
  rw [bits_eq, List.length_cons, List.length_append, covered_length, bitsMsb_length]
  omega

/-- A part of a list of bits, by what stands before it. -/
theorem part_of_split {bits before part after : List Bool} (h : bits = before ++ (part ++ after)) {k n : Nat}
    (hk : before.length = k) (hn : part.length = n) : (bits.drop k).take n = part := by
  subst hk hn
  rw [h, List.drop_left, List.take_left]

section Fields

variable (f : Frame)

theorem prio_of_bits : msbNum ((f.bits.drop 1).take 3) = f.prio.toNat := by
  rw [part_of_split (k := 1) (n := 3) (before := [false]) (part := bitsMsb 3 f.prio.toNat) (by simp [bits_eq, covered_eq]; rfl) rfl
    (bitsMsb_length _ _)]
  exact msbNum_bitsMsb_of_lt f.prio.isLt

theorem kind_of_bits : msbNum ((f.bits.drop 4).take 5) = f.kind.toNat := by
  rw [part_of_split (before := false :: bitsMsb 3 f.prio.toNat) (part := bitsMsb 5 f.kind.toNat)
    (by simp [bits_eq, covered_eq]; rfl) (by simp) (bitsMsb_length _ _)]
  exact msbNum_bitsMsb_of_lt f.kind.isLt

theorem source_of_bits : msbNum ((f.bits.drop 9).take 6) = f.source.toNat := by
  rw [part_of_split (before := false :: (bitsMsb 3 f.prio.toNat ++ bitsMsb 5 f.kind.toNat))
    (part := bitsMsb 6 f.source.toNat) (by simp [bits_eq, covered_eq]; rfl) (by simp) (bitsMsb_length _ _)]
  exact msbNum_bitsMsb_of_lt f.source.isLt

theorem len_of_bits (h : f.payload.length ≤ 8) : msbNum ((f.bits.drop 16).take 4) = f.payload.length := by
  rw [part_of_split (before := false :: (bitsMsb 3 f.prio.toNat ++ (bitsMsb 5 f.kind.toNat ++
    (bitsMsb 6 f.source.toNat ++ [false])))) (part := bitsMsb 4 f.payload.length)
    (by simp [bits_eq, covered_eq]; rfl) (by simp) (bitsMsb_length _ _)]
  exact msbNum_bitsMsb_of_lt (by omega)

theorem covered_of_bits : (f.bits.drop 1).take (19 + 8 * f.payload.length) = f.covered :=
  part_of_split (before := [false]) rfl rfl (covered_length f)

theorem check_of_bits : f.bits.drop (20 + 8 * f.payload.length) = bitsMsb 16 (checkOf f.covered).toNat := by
  have hlen : (false :: f.covered).length = 20 + 8 * f.payload.length := by
    rw [List.length_cons, covered_length]
    omega
  rw [← hlen, bits_eq, ← List.cons_append, List.drop_left]

theorem payload_of_bits : f.bits.drop 20 = payloadBits f.payload ++ bitsMsb 16 (checkOf f.covered).toNat := by
  have hsplit : f.bits = (false :: (bitsMsb 3 f.prio.toNat ++ (bitsMsb 5 f.kind.toNat ++ (bitsMsb 6 f.source.toNat ++
      (false :: bitsMsb 4 f.payload.length))))) ++
        (payloadBits f.payload ++ bitsMsb 16 (checkOf f.covered).toNat) := by
    rw [bits_eq]
    simp [covered_eq]
  rw [hsplit]
  exact List.drop_left' (by simp)

/-- The format bit is dominant. -/
theorem format_bit : f.bits.getD 15 true = false := by
  have hsplit : f.bits = (false :: (bitsMsb 3 f.prio.toNat ++ (bitsMsb 5 f.kind.toNat ++ bitsMsb 6 f.source.toNat))) ++
      (false :: (bitsMsb 4 f.payload.length ++ (payloadBits f.payload ++ bitsMsb 16 (checkOf f.covered).toNat))) := by
    rw [bits_eq]
    simp [covered_eq]
  rw [hsplit]
  rfl

end Fields

theorem bytesOf_payload (payload : List Byte) : ∀ rest, bytesOf payload.length (payloadBits payload ++ rest) = payload := by
  induction payload with
  | nil => exact fun _ => rfl
  | cons b tail ih =>
    intro rest
    have hbyte : byte (msbNum (bitsMsb 8 b.toNat)) = b := by
      rw [msbNum_bitsMsb_of_lt b.isLt]
      exact (BitVec.ofNat_toNat 8 b).trans (BitVec.setWidth_eq b)
    have hsplit : payloadBits (b :: tail) ++ rest = bitsMsb 8 b.toNat ++ (payloadBits tail ++ rest) := by
      unfold payloadBits
      rw [List.flatMap_cons, List.append_assoc]
    rw [List.length_cons, bytesOf, hsplit, List.take_left' (bitsMsb_length _ _), List.drop_left' (bitsMsb_length _ _),
      hbyte, ih]

/-! ### The receiver in step with the transmitter (R134, R135) -/

/-- A receiver that has taken the first m bits of frame f, stuff bits not counted. -/
structure OnTrack (f : Frame) (m : Nat) (p : Progress) : Prop where
  receiving : p.transmitting = false
  taken : p.bits = f.bits.take m
  sound : p.checkBad = false
  begun : 1 ≤ m
  within : m ≤ f.bits.length
  run : p.runLen ≤ 6
  ends : p.tail = none ∧ (m = f.bits.length → p.runLen = 6) ∨ p.tail = some 0 ∧ m = f.bits.length

theorem OnTrack.not_sending {f : Frame} {m : Nat} {p : Progress} (h : OnTrack f m p) (q : Prop) :
    ¬ (p.transmitting = true ∧ q) := fun ⟨hsending, _⟩ => by
  rw [h.receiving] at hsending
  cases hsending

section Track

variable {f : Frame} (hlen : f.payload.length ≤ 8)

include hlen

theorem len_of_taken {p : Progress} {m : Nat} (h : p.bits = f.bits.take m) (hm : 20 ≤ m) :
    p.len = f.payload.length := by
  have htake : ((f.bits.take m).drop 16).take 4 = (f.bits.drop 16).take 4 := by
    rw [List.drop_take, List.take_take, Nat.min_eq_left (by omega)]
  rw [Progress.len, h, htake, len_of_bits f hlen]

theorem full_iff {p : Progress} {m : Nat} (h : p.bits = f.bits.take m) (hm : m ≤ f.bits.length) :
    p.full = true ↔ m = f.bits.length := by
  have hbits : p.bits.length = m := by rw [h, List.length_take, Nat.min_eq_left hm]
  have htotal := bits_length f
  unfold Progress.full
  rw [hbits]
  by_cases h20 : 20 ≤ m
  · rw [len_of_taken hlen h h20]
    simp [h20]
    omega
  · simp [h20]
    omega

/-- A bit taken, the check delimiter is next where it was the last. -/
theorem onTrack_close {p : Progress} {m : Nat} (hreceiving : p.transmitting = false) (h : p.bits = f.bits.take m)
    (hsound : p.checkBad = false) (hbegun : 1 ≤ m) (hm : m ≤ f.bits.length) (hrun : p.runLen ≤ 6)
    (htail : p.tail = none) : OnTrack f m p.close := by
  have hfull := full_iff hlen h hm
  unfold Progress.close
  split
  next hclose => exact ⟨hreceiving, h, hsound, hbegun, hm, hrun, .inr ⟨rfl, hfull.mp hclose.1⟩⟩
  next hopen =>
    refine ⟨hreceiving, h, hsound, hbegun, hm, hrun, .inl ⟨htail, fun hend => ?_⟩⟩
    refine Classical.byContradiction fun hne => ?_
    exact hopen ⟨hfull.mpr hend, hne⟩

/-- The stuff bit that is due is taken as one. -/
theorem onTrack_stuff {p : Progress} {m : Nat} (h : OnTrack f m p) (htail : p.tail = none) (hrun : p.runLen = 6) :
    p.bit true (!p.runLevel) = .goes (p.run !p.runLevel).close ∧ OnTrack f m (p.run !p.runLevel).close ∧
      (p.run !p.runLevel).close.runLen = 1 := by
  have hone : (p.run !p.runLevel).runLen = 1 := if_neg (by simp)
  refine ⟨?_, onTrack_close hlen h.receiving h.taken h.sound h.begun h.within (by omega) htail, ?_⟩
  · rw [bit_of_field htail, fieldFinding, if_pos hrun, if_neg (h.not_sending _), if_neg (by simp)]
  · unfold Progress.close
    split <;> exact hone

/-- The frame's own next bit is taken as such. -/
theorem onTrack_data {p : Progress} {m : Nat} (h : OnTrack f m p) (htail : p.tail = none) (hrun : p.runLen ≠ 6) :
    m < f.bits.length ∧ p.bit true (f.bits.getD m true) = .goes (p.data (f.bits.getD m true)) ∧
      OnTrack f (m + 1) (p.data (f.bits.getD m true)) := by
  have hlt : m < f.bits.length := by
    have hends := h.ends.resolve_right fun hend => by rw [htail] at hend; cases hend.1
    have hne : m ≠ f.bits.length := fun hend => hrun (hends.2 hend)
    have := h.within
    omega
  have hbits : p.bits.length = m := by rw [h.taken, List.length_take, Nat.min_eq_left h.within]
  have hnext : p.bits ++ [f.bits.getD m true] = f.bits.take (m + 1) := by
    rw [h.taken, getD_of_lt hlt, List.take_append_getElem]
  have hsix : p.runLen + 1 ≤ 6 := by
    have := h.run
    omega
  have htrack : OnTrack f (m + 1) (p.data (f.bits.getD m true)) := by
    refine onTrack_close hlen h.receiving hnext h.sound (by omega) hlt ?_ htail
    show (if _ = p.runLevel then p.runLen + 1 else 1) ≤ 6
    split <;> omega
  refine ⟨hlt, ?_, htrack⟩
  have hformat : ¬ (p.bits.length = 15 ∧ f.bits.getD m true = true) := by
    rintro ⟨h15, hb⟩
    rw [hbits] at h15
    rw [h15, format_bit] at hb
    cases hb
  have hlength : ¬ (p.bits.length = 19 ∧ 9 ≤ (p.data (f.bits.getD m true)).len) := by
    rintro ⟨h19, hlong⟩
    rw [len_of_taken hlen htrack.taken (by omega)] at hlong
    omega
  rw [bit_of_field htail, fieldFinding, if_neg hrun, if_neg (h.not_sending _), if_neg (h.not_sending _),
    if_neg hformat, if_neg hlength]

/-- What is left to take, a stuff bit that is due counted as half a bit. -/
def bitsLeft (f : Frame) (m : Nat) (p : Progress) : Nat :=
  2 * (f.bits.length - m) + if p.runLen = 6 then 1 else 0

omit hlen in
theorem wireBits_of_tail {p : Progress} (h : p.tail.isSome) (fuel : Nat) : wireBits f fuel p = [] := by
  cases fuel with
  | zero => rfl
  | succ fuel => exact if_pos h

omit hlen in
theorem wireBits_stuff {p : Progress} (htail : p.tail = none) (hrun : p.runLen = 6) (fuel : Nat) :
    wireBits f (fuel + 1) p = (!p.runLevel) :: wireBits f fuel (p.run !p.runLevel).close := by
  have hstuff : p.stuffNext = true := by simp [Progress.stuffNext, htail, hrun]
  rw [wireBits, nextBit, hstuff, htail]
  rfl

omit hlen in
theorem wireBits_data {p : Progress} (htail : p.tail = none) (hrun : p.runLen ≠ 6) (fuel : Nat) :
    wireBits f (fuel + 1) p = f.bits.getD p.bits.length true ::
      wireBits f fuel (p.data (f.bits.getD p.bits.length true)) := by
  have hstuff : p.stuffNext = false := by simp [Progress.stuffNext, hrun]
  have hnext : nextBit f p = f.bits.getD p.bits.length true := by
    rw [nextBit, hstuff, htail]
    rfl
  rw [wireBits, if_neg (by simp [htail]), hnext, hstuff]
  rfl

/-- The bits that the transmitter sends from here on bring the receiver to the check delimiter. -/
theorem readBits_wireBits (fuel : Nat) : ∀ {m : Nat} {p : Progress}, OnTrack f m p → bitsLeft f m p ≤ fuel →
    ∃ q, readBits p (wireBits f fuel p) = some q ∧ OnTrack f f.bits.length q ∧ q.tail = some 0 := by
  induction fuel with
  | zero =>
    intro m p h hleft
    obtain ⟨-, hend⟩ | ⟨htail, rfl⟩ := h.ends
    · have := h.within
      unfold bitsLeft at hleft
      by_cases hm : m = f.bits.length
      · rw [hend hm] at hleft
        simp at hleft
      · omega
    · exact ⟨p, rfl, h, htail⟩
  | succ fuel ih =>
    intro m p h hleft
    obtain ⟨htail, -⟩ | ⟨htail, rfl⟩ := h.ends
    · by_cases hrun : p.runLen = 6
      · obtain ⟨hbit, htrack, hone⟩ := onTrack_stuff hlen h htail hrun
        have hfewer : bitsLeft f m (p.run !p.runLevel).close ≤ fuel := by
          unfold bitsLeft at hleft ⊢
          rw [hone]
          simp [hrun] at hleft ⊢
          omega
        obtain ⟨q, hread, hq⟩ := ih htrack hfewer
        refine ⟨q, ?_, hq⟩
        rw [wireBits_stuff htail hrun, readBits, hbit]
        exact hread
      · obtain ⟨hlt, hbit, htrack⟩ := onTrack_data hlen h htail hrun
        have hbits : p.bits.length = m := by rw [h.taken, List.length_take, Nat.min_eq_left h.within]
        have hfewer : bitsLeft f (m + 1) (p.data (f.bits.getD m true)) ≤ fuel := by
          unfold bitsLeft at hleft ⊢
          split <;> omega
        obtain ⟨q, hread, hq⟩ := ih htrack hfewer
        refine ⟨q, ?_, hq⟩
        rw [wireBits_data htail hrun, readBits, hbits, hbit]
        exact hread
    · exact ⟨p, by rw [wireBits_of_tail (by simp [htail])]; rfl, h, htail⟩

omit hlen in
theorem onTrack_sof (f : Frame) : OnTrack f 1 sofTaken :=
  have hlong : 1 < f.bits.length := by
    rw [bits_length]
    omega
  ⟨rfl, rfl, rfl, Nat.le_refl 1, Nat.le_of_lt hlong, by decide, .inl ⟨rfl, fun h => absurd h (by omega)⟩⟩

end Track

theorem checkAgrees_iff (p : Progress) : p.checkAgrees = true ↔ p.bits.drop (20 + 8 * p.len) =
    msbFirst 16 (registerAfter ((p.bits.drop 1).take (19 + 8 * p.len))).toNat := by
  rw [← bitsMsb_eq_msbFirst, ← checkOf_eq]
  exact decide_eq_true_iff

theorem frameBit_eq {lc : Link} {f : Frame} (h : lc.ownFrame = some f) (p : Progress) :
    lc.frameBit p = nextBit f p := by
  unfold Link.frameBit nextBit
  rw [h]

/-- Settles O42: a frame is read back as the frame sent. -/
theorem frameReadBackIsTheFrameSent : Obligations.FrameReadBackIsTheFrameSent := by
  refine ⟨fun f hlen => ?_, fun lc f p h => frameBit_eq h p,
    fun s f p hstarted hfree hphase hrx ht h => ?_, fun f => ?_, checkAgrees_iff⟩
  · have hleft : bitsLeft f 1 sofTaken ≤ 200 := by
      unfold bitsLeft
      rw [bits_length, if_neg (by decide)]
      omega
    obtain ⟨q, hread, htrack, htail⟩ := readBits_wireBits hlen 200 (onTrack_sof f) hleft
    have hbits : q.bits = f.bits := by rw [htrack.taken, List.take_length]
    have hqlen : q.len = f.payload.length := by rw [Progress.len, hbits, len_of_bits f hlen]
    refine ⟨q, hread, htail, hbits, ?_, ?_, ?_⟩
    · refine decide_eq_true ?_
      rw [hqlen, hbits, check_of_bits, covered_of_bits]
    · rw [Progress.kind, hbits, kind_of_bits]
    · unfold Progress.heard
      rw [hqlen, hbits, prio_of_bits, source_of_bits, payload_of_bits, bytesOf_payload, BitVec.ofNat_toNat,
        BitVec.ofNat_toNat, BitVec.setWidth_eq, BitVec.setWidth_eq]
  · rw [driveLevel_sending hfree hstarted hphase hrx ht, frameBit_eq h]
  · rw [bits_eq, covered_eq_coveredBits, bitsMsb_eq_msbFirst, checkOf_eq]
    rfl

end Sys2Proof.Proofs
end

section
/-! Command frames read with the checks of R162, and the answers to a QUERY (O13, O17). -/

namespace Sys2Proof.Proofs
open Sys2Proof.Machine

/-! ### The fields of a command (R162) -/

theorem outOf_eq_some_iff {m : Nat} {n : Out} : outOf m = some n ↔ m = n.val := by
  constructor
  · intro h
    unfold outOf at h
    split at h
    · rw [← Option.some.inj h]
    · cases h
  · rintro rfl
    exact outOf_val n

theorem isCS_iff (m : CoilMode) : m.isCS = true ↔ m = .pulse ∨ m = .pulseHold := by
  cases m <;> simp [CoilMode.isCS]

theorem coilOf_eq_some_iff {cfg : Settings} {p : List Byte} {n : Out} : coilOf cfg p = some n ↔ NamesCoil cfg p n := by
  unfold coilOf NamesCoil
  rw [← isCS_iff, ← outOf_eq_some_iff]
  constructor
  · intro h
    split at h
    next m hm =>
      split at h
      next hcs =>
        obtain rfl := Option.some.inj h
        exact ⟨hm, hcs⟩
      next => cases h
    next => cases h
  · rintro ⟨hn, hcs⟩
    rw [hn]
    exact if_pos hcs

theorem burstField_eq_some_iff {n : Nat} {b : Option Nat} : burstField n = some b ↔
    (n = 0 ∨ n = 1 ∨ n = 2 ∨ n = 4 ∨ n = 8) ∧ b = if n = 0 then none else some n := by
  unfold burstField
  by_cases h0 : n = 0
  · simp [h0, eq_comm]
  · by_cases h : n = 1 ∨ n = 2 ∨ n = 4 ∨ n = 8 <;> simp [h0, h, eq_comm]

theorem lampModeOf_eq_some_iff {n : Nat} {mode : LampMode} : lampModeOf n = some mode ↔
    n = 0 ∧ mode = .off ∨ n = 1 ∧ mode = .on ∨ n = 2 ∧ mode = .flash := by
  unfold lampModeOf
  by_cases h0 : n = 0
  · simp [h0, eq_comm]
  · by_cases h1 : n = 1
    · simp [h1, eq_comm]
    · by_cases h2 : n = 2 <;> simp [h0, h1, h2, eq_comm]

/-- A TRAIN request is read where period, count and burst size are in range. -/
theorem trainReqOf_eq_some_iff {p : List Byte} {req : TrainReq} : trainReqOf p = some req ↔
    10 ≤ pWord p 5 ∧ pWord p 5 ≤ 10000 ∧ (pByte p 3 = 0 ∧ 1 ≤ pByte p 4 ∨ pByte p 3 = 1) ∧
      (pByte p 7 = 0 ∨ pByte p 7 = 1 ∨ pByte p 7 = 2 ∨ pByte p 7 = 4 ∨ pByte p 7 = 8) ∧
      req = ⟨decide (pByte p 3 = 1), if pByte p 3 = 1 then 0 else pByte p 4, pWord p 5,
        if pByte p 7 = 0 then none else some (pByte p 7),
        if 8 ≤ p.length then some (byte (pByte p 8)) else none⟩ := by
  unfold trainReqOf
  cases hburst : burstField (pByte p 7) with
  | none =>
    have hno : ¬ (pByte p 7 = 0 ∨ pByte p 7 = 1 ∨ pByte p 7 = 2 ∨ pByte p 7 = 4 ∨ pByte p 7 = 8) := fun h => by
      rw [burstField_eq_some_iff.mpr ⟨h, rfl⟩] at hburst
      cases hburst
    simp [hno]
  | some b =>
    obtain ⟨hsize, rfl⟩ := burstField_eq_some_iff.mp hburst
    dsimp only
    by_cases hperiod : 10 ≤ pWord p 5 ∧ pWord p 5 ≤ 10000
    · rw [if_pos hperiod]
      by_cases h0 : pByte p 3 = 0
      · by_cases hcount : 1 ≤ pByte p 4
        · simpa [hperiod, h0, hcount, hsize] using eq_comm
        · simp [h0, hcount]
      · by_cases h1 : pByte p 3 = 1
        · simpa [hperiod, h1, hsize] using eq_comm
        · simp [h0, h1]
    · rw [if_neg hperiod]
      refine iff_of_false nofun fun ⟨hlow, hhigh, _⟩ => hperiod ⟨hlow, hhigh⟩

theorem coil_map_eq_some_iff {cfg : Settings} {p : List Byte} {r : Request} {c : Command} :
    (coilOf cfg p).map (.coil · r) = some c ↔ ∃ n, NamesCoil cfg p n ∧ c = .coil n r := by
  rw [Option.map_eq_some_iff]
  exact exists_congr fun n => and_congr coilOf_eq_some_iff eq_comm

theorem ite_none_eq_some_iff {α : Type} {q : Prop} [Decidable q] {x : Option α} {a : α} :
    (if q then x else none) = some a ↔ q ∧ x = some a := by
  by_cases h : q <;> simp [h]

/-- A command is read exactly where it passes the checks. -/
theorem readCommand_eq_some_iff (cfg : Settings) (k : CommandKind) (p : List Byte) (c : Command) :
    readCommand cfg k p = some c ↔ Reads cfg k p c := by
  unfold readCommand Reads
  cases k with
  | fire =>
    dsimp only
    by_cases h2 : p.length = 2
    · rw [if_pos h2, coil_map_eq_some_iff]
      simp [h2]
    · rw [if_neg h2, ite_none_eq_some_iff, coil_map_eq_some_iff]
      simp only [h2, false_and, false_or]
      exact ⟨fun ⟨⟨h4, hlow, hhigh⟩, n, hn, hc⟩ => ⟨n, hn, h4, hlow, hhigh, hc⟩,
        fun ⟨n, hn, h4, hlow, hhigh, hc⟩ => ⟨⟨h4, hlow, hhigh⟩, n, hn, hc⟩⟩
  | hold =>
    dsimp only
    rw [ite_none_eq_some_iff, coil_map_eq_some_iff]
    exact ⟨fun ⟨hlen, n, hn, hc⟩ => ⟨n, hn, hlen, hc⟩, fun ⟨n, hn, hlen, hc⟩ => ⟨hlen, n, hn, hc⟩⟩
  | release =>
    dsimp only
    rw [ite_none_eq_some_iff, coil_map_eq_some_iff]
    exact ⟨fun ⟨hlen, n, hn, hc⟩ => ⟨n, hn, hlen, hc⟩, fun ⟨n, hn, hlen, hc⟩ => ⟨hlen, n, hn, hc⟩⟩
  | train =>
    dsimp only
    rw [ite_none_eq_some_iff]
    constructor
    · rintro ⟨hlen, h⟩
      split at h
      next n req hn hreq =>
        obtain ⟨hlow, hhigh, hcount, hsize, rfl⟩ := trainReqOf_eq_some_iff.mp hreq
        exact ⟨n, coilOf_eq_some_iff.mp hn, hlen, hlow, hhigh, hcount, hsize, (Option.some.inj h).symm⟩
      next => cases h
    · rintro ⟨n, hn, hlen, hlow, hhigh, hcount, hsize, rfl⟩
      rw [coilOf_eq_some_iff.mpr hn, trainReqOf_eq_some_iff.mpr ⟨hlow, hhigh, hcount, hsize, rfl⟩]
      exact ⟨hlen, rfl⟩
  | trainStop =>
    dsimp only
    rw [ite_none_eq_some_iff, coil_map_eq_some_iff]
    exact ⟨fun ⟨⟨hlen, hb⟩, n, hn, hc⟩ => ⟨n, hn, hlen, hb, hc⟩,
      fun ⟨n, hn, hlen, hb, hc⟩ => ⟨⟨hlen, hb⟩, n, hn, hc⟩⟩
  | lamp =>
    dsimp only
    rw [ite_none_eq_some_iff]
    constructor
    · rintro ⟨⟨hlen, hb⟩, h⟩
      split at h
      next l mode hl hmode =>
        exact ⟨l, mode, hlen, outOf_eq_some_iff.mp hl, lampModeOf_eq_some_iff.mp hmode, hb, (Option.some.inj h).symm⟩
      next => cases h
    · rintro ⟨l, mode, hlen, hl, hmode, hb, rfl⟩
      rw [outOf_eq_some_iff.mpr hl, lampModeOf_eq_some_iff.mpr hmode]
      exact ⟨⟨hlen, hb⟩, rfl⟩
  | clear =>
    dsimp only
    rw [ite_none_eq_some_iff]
    constructor
    · rintro ⟨hlen, h⟩
      split at h
      next n hn =>
        split at h
        next => cases h
        next hmode => exact ⟨n, hlen, outOf_eq_some_iff.mp hn, hmode, (Option.some.inj h).symm⟩
      next => cases h
    · rintro ⟨n, hlen, hn, hmode, rfl⟩
      rw [outOf_eq_some_iff.mpr hn]
      exact ⟨hlen, if_neg hmode⟩
  | query =>
    dsimp only
    rw [ite_none_eq_some_iff]
    exact and_congr Iff.rfl ⟨fun h => (Option.some.inj h).symm, fun h => h ▸ rfl⟩

/-! ### Frames admitted (R161) -/

theorem addressed_iff (own : BitVec 6) (p : List Byte) :
    addressed own p = true ↔ pByte p 1 = own.toNat ∨ pByte p 1 = 63 := decide_eq_true_iff

theorem admits_iff (s : State) (k : CommandKind) (p : List Byte) : s.admits k p = true ↔
    (s.sl.station = .run ∨ s.sl.station = .unconfigured ∧ k = .query) ∧ (p = [] ∨ addressed s.own p = true) := by
  simp [State.admits, List.isEmpty_iff]

theorem heard_admits (s : State) (f : Heard) (k : CommandKind) (p : List Byte) :
    (heard s f).admits k p = s.admits k p := by
  unfold State.admits
  rw [received_sl, received_own]

section Admitted

variable {s : State} {k : CommandKind} {f : Heard}

theorem exec_of_admitted (h : Pre.admitted s k f) {c : Command} (hread : readCommand s.cfg k f.payload = some c) :
    exec (commandRow k f) s = .next (runCommand (heard s f) c) := by
  have hadmits : (heard s f).admits k f.payload = true := (heard_admits s f k _).trans ((admits_iff s k _).mpr h.2)
  rw [exec_commandRow, commandReceived, if_pos h.1, commandTaken, if_pos hadmits, received_cfg, hread]

theorem exec_of_malformed (h : Pre.admitted s k f) (hread : readCommand s.cfg k f.payload = none) :
    exec (commandRow k f) s = .next (heard s f).countBad := by
  have hadmits : (heard s f).admits k f.payload = true := (heard_admits s f k _).trans ((admits_iff s k _).mpr h.2)
  rw [exec_commandRow, commandReceived, if_pos h.1, commandTaken, if_pos hadmits, received_cfg, hread]

theorem exec_of_not_admitted (hrx : s.canReceive = true) (h : ¬ s.admits k f.payload = true) :
    exec (commandRow k f) s = .next (heard s f) := by
  rw [exec_commandRow, commandReceived, if_pos hrx, commandTaken, if_neg (by rw [heard_admits]; exact h)]

end Admitted

/-- Settles O13: command frames are admitted, read field by field, and counted where they fail. -/
theorem commandFramesAreAdmittedAndChecked : Obligations.CommandFramesAreAdmittedAndChecked := by
  refine ⟨?bad, ?other, readCommand_eq_some_iff, addressed_iff⟩
  case bad =>
    intro s k f h hno
    have hread : readCommand s.cfg k f.payload = none :=
      Option.eq_none_iff_forall_ne_some.mpr fun c hc => hno c ((readCommand_eq_some_iff _ _ _ _).mp hc)
    rw [exec_of_malformed h hread, ← received_er s f.source]
    rfl
  case other =>
    intro s k f hrx h
    refine exec_of_not_admitted hrx fun hadmits => ?_
    obtain ⟨hstation, hdest⟩ := (admits_iff s k _).mp hadmits
    obtain ⟨hrun, hquery⟩ | ⟨hne, hnot⟩ := h
    · exact hstation.elim hrun hquery
    · refine hdest.elim hne fun haddr => ?_
      rw [hnot] at haddr
      cases haddr

/-! ### Status pages (R26, R87, R95, R113, R181, Table 12-4) -/

theorem word_eq (n : Nat) : word n = twoBytes n := rfl

theorem bitsNum_nil : bitsNum [] = 0 := rfl

theorem bitsNum_cons (b : Bool) (rest : List Bool) : bitsNum (b :: rest) = bitAt b 0 + 2 * bitsNum rest := rfl

theorem bitAt_succ (b : Bool) (i : Nat) : bitAt b (i + 1) = 2 * bitAt b i := by
  unfold bitAt
  split
  · rw [Nat.pow_succ, Nat.mul_comm]
  · rfl

theorem codeOf_eq (s : State) (n : Out) : s.codeOf n = codeShown s n := by
  unfold State.codeOf codeShown
  cases s.entryOf n <;> cases (s.ch n).state <;> rfl

theorem faultKind_code (s : State) (n : Out) : (s.ch n).faultKind.code = kindShown s n := by
  unfold kindShown
  cases (s.ch n).faultKind <;> rfl

theorem codeByte_eq (s : State) (m : Nat) (a b : Out) (ha : outOf m = some a) (hb : outOf (m + 1) = some b) :
    codeByte s m = codePair s a b := by
  unfold codeByte codePair
  rw [ha, hb]
  dsimp only
  rw [codeOf_eq, codeOf_eq]

theorem kindByte_eq (s : State) (m : Nat) (a b c d : Out) (ha : outOf m = some a) (hb : outOf (m + 1) = some b)
    (hc : outOf (m + 2) = some c) (hd : outOf (m + 3) = some d) : kindByte s m = kindFour s a b c d := by
  unfold kindByte kindFour
  dsimp only
  rw [ha, hb, hc, hd]
  dsimp only
  rw [faultKind_code, faultKind_code, faultKind_code, faultKind_code]

/-! #### Switch bits -/

/-- Eight switches of page 6 as a number. -/
def eightBits (p : Sw → Bool) (low : Sw) : Nat :=
  bitsNum [p low, p (low + 1), p (low + 2), p (low + 3), p (low + 4), p (low + 5), p (low + 6), p (low + 7)]

theorem byte_eightBits (p : Sw → Bool) (low : Sw) : byte (eightBits p low) = switchByte p low := by
  unfold switchByte eightBits
  refine congrArg byte ?_
  simp only [bitsNum_cons, bitsNum_nil, bitAt_succ]
  omega

theorem bitsNum_append (a b : List Bool) : bitsNum (a ++ b) = bitsNum a + 2 ^ a.length * bitsNum b := by
  induction a with
  | nil => simp [bitsNum]
  | cons x rest ih =>
    rw [List.cons_append, bitsNum_cons, bitsNum_cons, ih, List.length_cons, Nat.pow_succ, Nat.mul_add,
      ← Nat.add_assoc, ← Nat.mul_assoc, Nat.mul_comm 2 (2 ^ _)]

theorem bitsNum_lt (a : List Bool) : bitsNum a < 2 ^ a.length := by
  induction a with
  | nil => exact Nat.one_pos
  | cons x rest ih =>
    have hbit : bitAt x 0 ≤ 1 := by
      unfold bitAt
      split <;> simp
    rw [bitsNum_cons, List.length_cons, Nat.pow_succ]
    omega

/-- A byte's worth of bits ahead of the others. -/
theorem bitsNum_eight {a : List Bool} (h : a.length = 8) (b : List Bool) :
    bitsNum a < 256 ∧ bitsNum (a ++ b) = bitsNum a + 256 * bitsNum b := by
  have hlt := bitsNum_lt a
  rw [bitsNum_append, h]
  rw [h] at hlt
  exact ⟨by omega, by omega⟩

theorem byte_add_mul (a b : Nat) : byte (a + 256 * b) = byte a := by
  apply BitVec.eq_of_toNat_eq
  rw [byte, byte, BitVec.toNat_ofNat, BitVec.toNat_ofNat]
  omega

theorem switchBytes_eq (p : Sw → Bool) : switchBytes p = [switchByte p 16, switchByte p 8, switchByte p 0] := by
  have hsplit : (List.finRange 24).map p =
      [p 0, p 1, p 2, p 3, p 4, p 5, p 6, p 7] ++ ([p 8, p 9, p 10, p 11, p 12, p 13, p 14, p 15] ++
        [p 16, p 17, p 18, p 19, p 20, p 21, p 22, p 23]) := rfl
  have hlow (low : Sw) := bitsNum_eight (a := [p low, p (low + 1), p (low + 2), p (low + 3), p (low + 4), p (low + 5),
    p (low + 6), p (low + 7)]) rfl
  have hnum : bitsNum ((List.finRange 24).map p) = eightBits p 0 + 256 * (eightBits p 8 + 256 * eightBits p 16) := by
    rw [hsplit, (bitsNum_eight rfl _).2, (bitsNum_eight rfl _).2]
    rfl
  have h0 : eightBits p 0 < 256 := (hlow 0 []).1
  have h8 : eightBits p 8 < 256 := (hlow 8 []).1
  unfold switchBytes
  dsimp only
  rw [hnum, ← byte_eightBits, ← byte_eightBits, ← byte_eightBits, byte_add_mul,
    show (eightBits p 0 + 256 * (eightBits p 8 + 256 * eightBits p 16)) / 256 =
      eightBits p 8 + 256 * eightBits p 16 by omega,
    show (eightBits p 0 + 256 * (eightBits p 8 + 256 * eightBits p 16)) / 65536 = eightBits p 16 by omega,
    byte_add_mul]

/-! #### The parts of an output's page -/

theorem channelPart_eq (s : State) (n : Out) : channelPart s n = outputShown s n := by
  have hbits (a : Nat) (b c d e f g : Bool) : a + 4 * bitsNum [b, c, d, e, f, g] =
      a + bitAt b 2 + bitAt c 3 + bitAt d 4 + bitAt e 5 + bitAt f 6 + bitAt g 7 := by
    simp only [bitsNum_cons, bitsNum_nil, bitAt_succ]
    omega
  unfold channelPart outputShown
  dsimp only
  rw [hbits]
  cases s.entryOf n with
  | none => rfl
  | some e =>
    dsimp only
    rw [← entryK_eq]
    rfl

theorem trainPart_eq (tr : Train) : trainPart tr = trainShown tr := by
  have hbits (a b c d : Bool) : bitsNum [a, b, c, d] = bitAt a 0 + bitAt b 1 + bitAt c 2 + bitAt d 3 := by
    simp only [bitsNum_cons, bitsNum_nil, bitAt_succ]
    omega
  unfold trainPart trainShown
  rw [hbits]
  rfl

theorem burstPart_eq (b : Burst) : burstPart b = burstShown b := rfl

theorem flipperPart_eq (s : State) (i : Flip) (n : Out) : flipperPart s i n = flipperShown s i n := by
  have hbits (a b c d : Bool) : bitsNum [a, b, c, d] = bitAt a 0 + bitAt b 1 + bitAt c 2 + bitAt d 3 := by
    simp only [bitsNum_cons, bitsNum_nil, bitAt_succ]
    omega
  unfold flipperPart flipperShown
  dsimp only
  rw [hbits]
  by_cases hpower : (s.cfg.flippers.get i).power = n
  · simp only [hpower, if_true, ne_eq, not_true_eq_false, decide_false, Bool.false_eq_true, if_false, Nat.add_zero]
    cases (s.fl.get i).state <;> rfl
  · simp [hpower]

/-! #### The pages -/

theorem ownDraw_eq (s : State) :
    s.ownDraw = match standingIdx s.own with | some i => (s.db.standing.get i).draw | none => 0 := by
  unfold State.ownDraw
  cases standingIdx s.own <;> rfl

/-- A part of a page as the payload of its STATUS frame. -/
def partPayload (page : Nat) (part : Nat × List Byte) : List Byte := byte (part.1 * 32 + page) :: part.2

theorem partPayload_eq (n : Out) (k : Nat) (contents : List Byte) :
    partPayload (n.val + 7) (k, contents) = byte (k * 32 + 7 + n.val) :: contents :=
  congrArg (byte · :: contents) (by omega)

theorem outputParts_eq (s : State) (n : Out) :
    (outputParts s n).map (partPayload (n.val + 7)) = pageShown s (n.val + 7) := by
  rw [pageShown, outOf_val]
  unfold outputParts
  dsimp only
  rw [List.map_append]
  refine congr (congrArg HAppend.hAppend ?train) ?flipper
  case train =>
    rw [channelPart_eq]
    cases (s.ch n).train with
    | none => simp [partPayload_eq]
    | some tr =>
      cases hburst : tr.burst <;> simp [partPayload_eq, trainPart_eq, burstPart_eq, hburst]
  case flipper =>
    by_cases hmode : (s.prof n).mode = .flipper
    · rw [if_pos hmode, hmode]
      cases s.cfg.flipperOf n <;> simp [partPayload_eq, flipperPart_eq]
    · rw [if_neg hmode]
      cases hm : (s.prof n).mode with
      | flipper => exact absurd hm hmode
      | _ => rfl

/-- Every page 0 to 22 is shown with the parts and contents of Table 12-4. -/
theorem pageParts_eq (s : State) {page : Nat} (h : page ≤ 22) :
    (pageParts s page).map (partPayload page) = pageShown s page := by
  match page, h with
  | 0, _ => rfl
  | 1, _ =>
    have hsupply : byte s.sc.supplyState.code = match s.sc.supplyState with | .normal => (0 : Byte) | .low => 1 := by
      cases s.sc.supplyState <;> rfl
    unfold pageParts pageShown
    dsimp only
    rw [viewTotal_eq, hsupply, ownDraw_eq]
    rfl
  | 2, _ =>
    show [2 :: [codeByte s 0, codeByte s 2, codeByte s 4, codeByte s 6],
      34 :: [codeByte s 8, codeByte s 10, codeByte s 12, codeByte s 14]] = _
    rw [codeByte_eq s 0 0 1 rfl rfl, codeByte_eq s 2 2 3 rfl rfl, codeByte_eq s 4 4 5 rfl rfl,
      codeByte_eq s 6 6 7 rfl rfl, codeByte_eq s 8 8 9 rfl rfl, codeByte_eq s 10 10 11 rfl rfl,
      codeByte_eq s 12 12 13 rfl rfl, codeByte_eq s 14 14 15 rfl rfl]
    rfl
  | 3, _ =>
    show [3 :: [kindByte s 0, kindByte s 4, kindByte s 8, kindByte s 12]] = _
    rw [kindByte_eq s 0 0 1 2 3 rfl rfl rfl rfl, kindByte_eq s 4 4 5 6 7 rfl rfl rfl rfl,
      kindByte_eq s 8 8 9 10 11 rfl rfl rfl rfl, kindByte_eq s 12 12 13 14 15 rfl rfl rfl rfl]
    rfl
  | 4, _ => rfl
  | 5, _ => rfl
  | 6, _ =>
    have hclosed : s.switchClosed = fun sw => match (s.sw.sw.get sw).state with
        | .closed => true | .opening => true | .stuck => true | .open => false | .closing => false := by
      funext sw
      unfold State.switchClosed
      cases (s.sw.sw.get sw).state <;> rfl
    unfold pageParts pageShown
    dsimp only
    rw [switchBytes_eq, switchBytes_eq, hclosed]
    rfl
  | n + 7, h =>
    have hn : n < 16 := by omega
    have hparts : pageParts s (n + 7) = outputParts s ⟨n, hn⟩ := by
      show (match outOf n with | some o => outputParts s o | none => []) = _
      rw [outOf_eq_some_iff.mpr (show n = (⟨n, hn⟩ : Out).val from rfl)]
    rw [hparts]
    exact outputParts_eq s ⟨n, hn⟩

theorem statusFrames_eq (s : State) {page : Nat} (h : page ≤ 22) :
    statusFrames s page = (pageShown s page).map (statusOf s) := by
  rw [statusFrames, if_pos h, ← pageParts_eq s h, List.map_map]
  rfl

theorem statusOf_heard (s : State) (f : Heard) : statusOf (heard s f) = statusOf s := by
  unfold statusOf
  rw [received_own]

/-! ### The answer to a QUERY (R162, R181) -/

theorem clearOverflow_low (s : State) {page : Nat} (h : page ≤ 6) : clearOverflow s page = s := if_neg (by omega)

theorem clearOverflow_output (s : State) (n : Out) :
    clearOverflow s (7 + n.val) = s.updCh n fun c => { c with overflow := false } := by
  unfold clearOverflow
  rw [if_pos (by omega), Nat.add_sub_cancel_left, outOf_val]

theorem clearOverflow_high (s : State) {page : Nat} (h : 22 < page) : clearOverflow s page = s := by
  have hno : outOf (page - 7) = none := dif_neg (by omega)
  unfold clearOverflow
  rw [hno]
  split <;> rfl

/-- A page handed to LC, with nothing else changed. -/
theorem answerQuery_of_kept {s : State} {page : Nat} (h : clearOverflow s page = s) :
    answerQuery s page = { s with lc := (statusFrames s page).foldl Link.hand s.lc } := by
  unfold answerQuery
  rw [h, ite_self]

/-- Settles O17: a QUERY is answered with its page. -/
theorem queryIsAnsweredWithItsPage : Obligations.QueryIsAnsweredWithItsPage := by
  have hfold (s : State) (f : Heard) (page : Nat) (hpage : page ≤ 22) (lc : Link) :
      (statusFrames (heard s f) page).foldl Link.hand lc =
        (pageShown (heard s f) page).foldl (fun lc p => lc.hand (statusOf s p)) lc := by
    rw [statusFrames_eq _ hpage, List.foldl_map, statusOf_heard]
  refine ⟨?low, ?output, ?high⟩
  case low =>
    intro s f page h hpage
    have hno : ¬ 22 < page := by omega
    refine (exec_of_admitted h.1 h.2).trans (congrArg _ ?_)
    rw [runCommand, if_neg hno, answerQuery_of_kept (clearOverflow_low _ hpage), hfold s f page (by omega)]
  case output =>
    intro s f n h
    have hno : ¬ 22 < 7 + n.val := by omega
    refine (exec_of_admitted h.1 h.2).trans (congrArg _ ?_)
    rw [runCommand, if_neg hno]
    unfold answerQuery
    dsimp only
    rw [clearOverflow_output, hfold s f _ (by omega)]
    by_cases hsilent : (heard s f).lc.state = .silent
    · rw [if_pos hsilent, if_pos hsilent]
    · rw [if_neg hsilent, if_neg hsilent, updCh_eq_withChan, received_ch]
      rfl
  case high =>
    intro s f page h hpage
    refine (exec_of_admitted h.1 h.2).trans (congrArg _ ?_)
    rw [runCommand, if_pos hpage, answerQuery_of_kept (clearOverflow_high _ hpage), ← received_er s f.source]
    have hown := congrFun (statusOf_heard s f) [byte page]
    rw [← hown]
    exact congrArg (fun frames => { (heard s f).countBad with lc := frames.foldl Link.hand (heard s f).lc })
      (show statusFrames (heard s f).countBad page = _ from if_neg (by omega))

end Sys2Proof.Proofs
end

section
/-! Lamp windows, the BEAT's window, the lines of the switches, and the gates (O44, O45, O50, O55). -/

namespace Sys2Proof.Proofs
open Sys2Proof.Machine

/-! ### Window starts (R117, R119, R121) -/

theorem falls_iff {s : State} {f : Falling} : s.falls f = true ↔ f ∈ s.falling := List.contains_iff_mem

theorem isLit_iff (s : State) (l : Lamp) :
    (s.lp.lamps.get l).isLit s.pc.state.dark s.lp.beat = true ↔ Lit s l := by
  have hforced : (s.pc.state.dark && (s.lp.lamps.get l).tiltGroup) = true ↔
      (s.pc.state = .tilt ∨ s.pc.state = .slam) ∧ (s.lp.lamps.get l).tiltGroup = true := by
    rw [Bool.and_eq_true, dark_iff]
  unfold LampRec.isLit Lit
  rw [← hforced]
  generalize (s.pc.state.dark && (s.lp.lamps.get l).tiltGroup) = forced
  cases forced
  · cases (s.lp.lamps.get l).mode <;> simp [and_comm]
  · simp

/-- The windows left and the step after a lit window of a soft-start, as the record counts them. -/
theorem softWindow_eq (r : LampRec) (step left : Nat) :
    r.softWindow step left =
      { r with
        lit := true
        duty := ceilDiv (r.b * step) 4
        step := if left ≤ 1 then if step = 3 then 0 else step + 1 else step
        left := if left ≤ 1 then if step = 3 then 0 else 4 else left - 1 } := by
  have hlast : left - 1 = 0 ↔ left ≤ 1 := by omega
  unfold LampRec.softWindow softAdvance
  by_cases hleft : left ≤ 1
  · by_cases hstep : step = 3 <;> simp only [if_pos (hlast.mpr hleft), if_pos hleft, if_pos, if_neg, hstep,
      not_false_eq_true]
  · simp only [if_neg fun h => hleft (hlast.mp h), if_neg hleft]

theorem softWindow_first (r : LampRec) :
    r.softWindow 1 4 = { r with lit := true, duty := ceilDiv r.b 4, step := 1, left := 3 } := by
  rw [softWindow_eq, Nat.mul_one]
  rfl

/-- Settles O44: the model's window lies in the obligation's four rows, one for each kind of window. -/
theorem windowStartFixesTheDuty : Obligations.WindowStartFixesTheDuty := by
  intro s l ⟨hfalls, hrun⟩
  have htaken : exec (.windowStart l) s = execWindowStart l s := rfl
  rw [htaken, execWindowStart, if_pos ⟨falls_iff.mpr hfalls, hrun⟩]
  refine congrArg (fun r => Host.Outcome.next
    { s with falling := s.falling.erase (.window l), lp.lamps := s.lp.lamps.set l r }) ?_
  show (s.lp.lamps.get l).window s.pc.state.dark s.lp.beat = _
  unfold LampRec.window
  by_cases hlit : Lit s l
  · rw [if_pos ((isLit_iff s l).mpr hlit), if_pos hlit]
    by_cases hfirst : (s.lp.lamps.get l).lit = false
    · rw [if_pos hfirst, if_pos hfirst, softWindow_first]
    · rw [if_neg hfirst, if_neg hfirst, softWindow_eq]
  · rw [if_neg (fun h => hlit ((isLit_iff s l).mp h)), if_neg hlit]

/-! ### The BEAT of phase 0 and its window (R125, R126) -/

theorem beatLate_of {s : State} {f : Frame} {fails : Nat} (hslot : s.lc.slots.get 1 = some ⟨f, false, fails⟩)
    (hlate : 4 ≤ s.lp.phase ∨ pByte f.payload 1 ≠ s.lp.beat.toNat) : s.beatLate = true := by
  unfold State.beatLate
  rw [hslot]
  simpa using hlate

/-- Settles O45: a phase 0 is announced as `handBeat_eq` says, and a BEAT found late is withdrawn. -/
theorem beatIsSentInItsWindow : Obligations.BeatIsSentInItsWindow := by
  refine ⟨?zero, ?withdraw⟩
  case zero =>
    intro s beat hfalls
    have htaken : exec .beatPhaseZero s = .next (handBeat (s.take (.beatZero beat)) beat) := by
      show execBeatPhaseZero s = _
      rw [execBeatPhaseZero, show s.beatFalls = some beat from hfalls]
    rw [htaken, handBeat_eq]
    by_cases hsends : Announces s beat
    · rw [if_pos (show Announces (s.take (.beatZero beat)) beat from hsends)]
      exact (congrArg Host.Outcome.next (if_pos hsends)).symm
    · rw [if_neg (show ¬ Announces (s.take (.beatZero beat)) beat from hsends)]
      exact (congrArg Host.Outcome.next (if_neg hsends)).symm
  case withdraw =>
    intro s f fails hslot hlate
    exact if_pos (beatLate_of hslot hlate)

/-! ### A change of a line (R101–R103, R106) -/

theorem raw_eq_afterRaw (r : Switch) (st : SwitchSettings) (now : Tick) (closed : Bool) :
    r.raw st now closed = afterRaw r st now closed := by
  obtain ⟨state, debounceEnd, stuckEnd⟩ := r
  cases closed <;> cases state <;> rfl

theorem exec_rawChange (sw : Sw) (high : Bool) (s : State) :
    exec (.rawChange sw high) s = if Pre.raw s sw high then .next { s with
      lines.sw := s.lines.sw.set sw high
      sw.sw := s.sw.sw.set sw ((s.sw.sw.get sw).raw (s.cfg.switches.get sw) s.tick
        (rawClosed (s.cfg.switches.get sw).invert high)) }
    else .next { s with lines.sw := s.lines.sw.set sw high } := rfl

/-- Settles O50: `exec_rawChange`, with the record tied to `afterRaw`. -/
theorem rawChangesMoveTheDebounce : Obligations.RawChangesMoveTheDebounce := by
  refine ⟨?change, ?same⟩
  case change =>
    intro s sw high h
    rw [exec_rawChange, if_pos h, raw_eq_afterRaw]
    rfl
  case same =>
    intro s sw high h
    have hno : ¬ Pre.raw s sw high := by
      rintro ⟨hview, hchange⟩
      rcases h with hoff | hsame
      · exact absurd hview (by simp [hoff])
      · exact hchange hsame
    rw [exec_rawChange, if_neg hno]

/-! ### The gates (R5, R74, R81, R116) -/

theorem modulated_iff (s : State) (since : Tick) (duty : Nat) :
    modulated s.tick since duty = true ↔ On16 s since duty := decide_eq_true_iff

/-- A lamp's gate counts from the window start at position `l mod 15`. -/
theorem sinceWindow_lt_iff (pos duty : Nat) (l : Lamp) :
    sinceWindow pos l < duty ↔ ∃ d, d < duty ∧ d ≤ 14 ∧ pos % 15 = (l.val + d) % 15 := by
  unfold sinceWindow
  constructor
  · intro h
    exact ⟨(pos + 15 - l.val % 15) % 15, h, by omega, by omega⟩
  · rintro ⟨d, hduty, hd, hpos⟩
    omega

theorem coilGate_of_run {s : State} {n : Out} (hrun : s.sl.station = .run) (hst : (s.ch n).state ≠ .flipper) :
    coilGate s n = true ↔ (s.ch n).state = .power ∨
      (s.ch n).state = .hold ∧ On16 s (s.ch n).holdStart (s.prof n).duty := by
  unfold coilGate
  rw [if_pos hrun, ← modulated_iff]
  cases hstate : (s.ch n).state with
  | flipper => exact absurd hstate hst
  | _ => simp

theorem coilGate_of_flipper {s : State} {n : Out} {f : Flip} (hrun : s.sl.station = .run)
    (hst : (s.ch n).state = .flipper) (hf : s.cfg.flipperOf n = some f) :
    coilGate s n = flipperGate s f n := by
  simp [coilGate, hrun, hst, hf]

/-- In HOLD a single winding is modulated throughout, a dual one on its hold output and only once reduced. -/
theorem flipperGate_iff (s : State) (f : Flip) (n : Out) :
    flipperGate s f n = true ↔
      (s.fl.get f).state = .power ∨ (s.fl.get f).state = .repower ∨
      (s.fl.get f).state = .hold ∧
        ((s.cfg.flippers.get f).hold = none ∧
            On16 s (s.fl.get f).periodStart (if (s.fl.get f).reduced = true then
              max 1 ((s.cfg.flippers.get f).duty / 2) else (s.cfg.flippers.get f).duty) ∨
          (s.cfg.flippers.get f).hold = some n ∧
            ((s.fl.get f).reduced = false ∨ On16 s (s.fl.get f).periodStart 8)) := by
  simp only [← modulated_iff]
  unfold flipperGate heldDuty
  cases hstate : (s.fl.get f).state with
  | rest => simp [hstate]
  | power => simp [hstate]
  | repower => simp [hstate]
  | hold =>
    cases hold : (s.cfg.flippers.get f).hold with
    | none => cases hreduced : (s.fl.get f).reduced <;> simp [hstate, hold, hreduced]
    | some m =>
      by_cases hm : m = n
      · cases hreduced : (s.fl.get f).reduced <;> simp [hstate, hold, hreduced, hm]
      · simp [hstate, hold, hm]

/-- Settles O55: a gate lemma for each row. -/
theorem gatesFollowTheRecords : Obligations.GatesFollowTheRecords := by
  refine ⟨?off, fun s n => coilGate_of_run, ?flipper, ?lamp⟩
  case off =>
    intro s n l hnot
    exact ⟨if_neg hnot, by rw [lampGate, decide_eq_false hnot, Bool.false_and]⟩
  case flipper =>
    intro s n f hrun hst hf
    rw [coilGate_of_flipper hrun hst hf]
    exact flipperGate_iff s f n
  case lamp =>
    intro s l hrun
    rw [lampGate, decide_eq_true hrun, Bool.true_and, decide_eq_true_iff]
    exact sinceWindow_lt_iff _ _ l

end Sys2Proof.Proofs
end

section
/-! Switches and flippers: the edges a debounce end makes, what a change of level does to a flipper, and the ends of
a flipper's phases (O51, O52, O54). -/

namespace Sys2Proof.Proofs
open Sys2Proof.Machine

/-! ### What a level does to one flipper (R73, R75–R82) -/

theorem eosCheck_eq (r : Flipper) (eos : Option Bool) : r.eosCheck eos = eosChecked r eos := by
  cases eos <;> rfl

theorem press_eq (s : State) (f : Flip) : press s f = pressed s f := by
  unfold press
  dsimp only
  rw [eosCheck_eq]
  rfl

theorem canPress_iff (s : State) (f : Flip) : s.canPress f = true ↔ Pre.press s f := by
  simp [State.canPress, and_assoc]

theorem buttonClose_eq (s : State) (f : Flip) : buttonClose s f = if Pre.press s f then pressed s f else s := by
  simp only [buttonClose, canPress_iff, press_eq]

theorem buttonOpen_eq (s : State) (f : Flip) : buttonOpen s f = flipperRested s f := by
  unfold buttonOpen flipperRested State.setFlip Flipper.rest
  by_cases h : (s.fl.get f).state = .rest
  · rw [if_pos h, if_pos h, Bank.set_get]
  · rw [if_neg h, if_neg h]

theorem flipHold_eq (s : State) (f : Flip) : flipHold s f = { s with fl := s.fl.set f (flipHeld s f) } := rfl

theorem eosClose_eq (s : State) (f : Flip) : eosClose s f = eosClosed s f := rfl

theorem eosOpen_eq (s : State) (f : Flip) : eosOpen s f = eosOpened s f := rfl

/-- The flipper watches the switch, as its button or as its EOS switch (R73). -/
abbrev Watches (s : State) (sw : Sw) (f : Flip) : Prop :=
  (s.cfg.flippers.get f).inUse = true ∧
    ((s.cfg.flippers.get f).button = sw ∨ (s.cfg.flippers.get f).eos = some sw)

section Level
variable {s : State} {sw : Sw} {f : Flip} {closed : Bool}

theorem flipperLevel_of_unwatched (h : ¬ Watches s sw f) : flipperLevel s sw closed f = s := by
  unfold flipperLevel
  dsimp only
  by_cases huse : (s.cfg.flippers.get f).inUse = true
  · rw [if_pos huse, if_neg fun hb => h ⟨huse, .inl hb⟩, if_neg fun he => h ⟨huse, .inr he⟩]
  · rw [if_neg huse]

theorem flipperLevel_of_button (huse : (s.cfg.flippers.get f).inUse = true)
    (hbutton : (s.cfg.flippers.get f).button = sw) :
    flipperLevel s sw closed f =
      if closed = true then if Pre.press s f then pressed s f else s else flipperRested s f := by
  unfold flipperLevel
  dsimp only
  rw [if_pos huse, if_pos hbutton, buttonClose_eq, buttonOpen_eq]

theorem flipperLevel_of_eos (huse : (s.cfg.flippers.get f).inUse = true)
    (hbutton : (s.cfg.flippers.get f).button ≠ sw) (heos : (s.cfg.flippers.get f).eos = some sw) :
    flipperLevel s sw closed f = if closed = true then eosClosed s f else eosOpened s f := by
  unfold flipperLevel
  dsimp only
  rw [if_pos huse, if_neg hbutton, if_pos heos, eosClose_eq, eosOpen_eq]

end Level

theorem flipperLevel_eq (s : State) (sw : Sw) (closed : Bool) (f : Flip) :
    flipperLevel s sw closed f = flipperAnswer s sw closed f := by
  by_cases huse : (s.cfg.flippers.get f).inUse = true
  · by_cases hbutton : (s.cfg.flippers.get f).button = sw
    · rw [flipperLevel_of_button huse hbutton]
      refine Eq.trans ?_ (if_pos ⟨huse, hbutton⟩).symm
      cases closed <;> rfl
    · refine Eq.trans ?_ (if_neg fun h => hbutton h.2).symm
      by_cases heos : (s.cfg.flippers.get f).eos = some sw
      · rw [flipperLevel_of_eos huse hbutton heos]
        exact (if_pos ⟨huse, heos⟩).symm
      · rw [flipperLevel_of_unwatched fun h => h.2.elim hbutton heos]
        exact (if_neg fun h => heos h.2).symm
  · rw [flipperLevel_of_unwatched fun h => huse h.1]
    exact ((if_neg fun h => huse h.1).trans (if_neg fun h => huse h.1)).symm

/-! ### The flippers a level reaches -/

/-- Where no flipper of a list but `f` watches the switch, the list answers as `f` does, if it is there. -/
theorem foldl_flipperLevel_alone {sw : Sw} {closed : Bool} {f : Flip} (l : List Flip) (hnodup : l.Nodup) :
    ∀ s : State, (∀ g, g ≠ f → ¬ Watches s sw g) →
      l.foldl (fun t g => flipperLevel t sw closed g) s = if f ∈ l then flipperLevel s sw closed f else s := by
  induction l with
  | nil => exact fun s _ => rfl
  | cons g l ih =>
    intro s halone
    obtain ⟨hnotin, hnodup⟩ := List.nodup_cons.mp hnodup
    rw [List.foldl_cons]
    by_cases hg : g = f
    · have hkept : ∀ g, g ≠ f → ¬ Watches (flipperLevel s sw closed f) sw g := by
        intro g hne
        rw [Watches, (flipperLevel_keeps s sw closed f).1]
        exact halone g hne
      subst hg
      rw [ih hnodup _ hkept, if_neg hnotin, if_pos List.mem_cons_self]
    · rw [flipperLevel_of_unwatched (halone g hg), ih hnodup s halone]
      simp only [List.mem_cons, Ne.symm hg, false_or]

theorem flippersLevel_of_alone {s : State} {sw : Sw} {f : Flip} (h : ∀ g, g ≠ f → ¬ Watches s sw g)
    (closed : Bool) : flippersLevel s sw closed = flipperLevel s sw closed f := by
  rw [flippersLevel, foldl_flipperLevel_alone _ (List.nodup_finRange 4) s h, if_pos (List.mem_finRange f)]

theorem not_watches_of_noFlipper {s : State} {sw : Sw} (h : Pre.noFlipper s sw) (f : Flip) : ¬ Watches s sw f := by
  rintro ⟨huse, hbutton | heos⟩
  · exact (h f huse).1 hbutton
  · exact (h f huse).2 heos

theorem flippersLevel_of_noFlipper {s : State} {sw : Sw} (h : Pre.noFlipper s sw) (closed : Bool) :
    flippersLevel s sw closed = s := by
  rw [flippersLevel_of_alone (f := 0) (fun g _ => not_watches_of_noFlipper h g),
    flipperLevel_of_unwatched (not_watches_of_noFlipper h 0)]

/-! ### The settings are the start loader's: no rule changes them -/

theorem cfg_of_coilWork {s t : State} (h : CoilWork s t) : t.cfg = s.cfg := by rw [h]

theorem playChange_cfg (s : State) (k : PlayFrame) : (playChange s k).cfg = s.cfg := by
  by_cases hrun : s.sl.station = .run
  · rw [playChange_of_run hrun]
    split
    · split
      · rfl
      · rw [coilWork_select]
        rfl
    · obtain ⟨fl, lp, heffects, -⟩ := playEffects_eq (playSet s k) s.pc.state (k.next s.pc.state)
      rw [coilWork_select, heffects]
      dsimp only
      rw [coilWork_gateOutputs]
      rfl
  · rw [playChange, if_neg hrun]

theorem raisePlay_cfg (s : State) (k : PlayFrame) : (raisePlay s k).cfg = s.cfg := by
  unfold raisePlay
  dsimp only
  split
  · exact playChange_cfg (s.hand _) k
  · rfl

theorem raiseStop_cfg (s : State) : (raiseStop s).cfg = s.cfg := by
  unfold raiseStop
  split
  · by_cases hrun : s.sl.station = .run
    · rw [tableStop_of_run hrun]
      split
      · rw [cfg_of_coilWork (coilWork_announce _), stoppedTable_cfg]
      · exact stoppedTable_cfg s
    · rw [tableStop, if_neg hrun]
      split <;> rfl
  · split <;> rfl

theorem coilRequest_cfg (s : State) (n : Out) (r : Request) : (coilRequest s n r).cfg = s.cfg := by
  unfold coilRequest
  split
  · split
    · exact cfg_of_coilWork (coilWork_takeRequest s n r)
    · rfl
  · rfl

theorem runAction_cfg (s : State) (a : Action) : (runAction s a).cfg = s.cfg := by
  cases a with
  | notInUse => rfl
  | fire n => exact coilRequest_cfg s n _
  | hold n => exact coilRequest_cfg s n _
  | release n => exact coilRequest_cfg s n _
  | train n req => exact coilRequest_cfg s n _
  | trainStop n cancel => exact coilRequest_cfg s n _
  | lampSet l mode b pattern =>
    show (lampSet s l mode b pattern).cfg = _
    unfold lampSet
    split <;> rfl
  | raiseTilt => exact raisePlay_cfg s _
  | raiseSlam => exact raisePlay_cfg s _
  | tableStop => exact raiseStop_cfg s
  | gameStart => exact raisePlay_cfg s _
  | gameOver => exact raisePlay_cfg s _

theorem ruleEvent_cfg (s : State) (sw : Sw) (close : Bool) (code : Byte) (prio : BitVec 3) :
    (ruleEvent s sw close code prio).cfg = s.cfg := by
  unfold ruleEvent
  split <;> rfl

theorem applyRule_cfg (s : State) (r : Rule) (sw : Sw) (close : Bool) : (applyRule s r sw close).cfg = s.cfg := by
  unfold applyRule
  cases r.action <;> cases r.event <;> simp only [ruleEvent_cfg, runAction_cfg]

theorem applyRules_cfg (s : State) (sw : Sw) (close : Bool) : (applyRules s sw close).cfg = s.cfg := by
  unfold applyRules
  generalize s.edgeRules sw close = rules
  induction rules generalizing s with
  | nil => rfl
  | cons r rules ih => rw [List.foldl_cons, ih, applyRule_cfg]

/-! ### The edges (R102, R103, R106, R107) -/

/-- DEBOUNCE_END in CLOSING makes a close edge from CLOSED, with the stuck end of the stuck check (R102). -/
theorem exec_debounceEnd_closing {s : State} {sw : Sw} {due : Tick} (h : Pre.debounce s sw .closing due) :
    exec (.debounceEnd sw) s = .next (edge (withSw s sw (swClosed s sw)) sw true) := by
  have hdue := debounceDue_of h
  obtain ⟨-, hstate, -⟩ := h
  simp only [exec_debounceEnd_eq, execDebounceEnd, if_pos hdue, hstate]
  rfl

theorem edgeOrderOpen_of_noFlipper {s : State} {sw : Sw} (h : Pre.noFlipper s sw) (close : Bool) :
    s.edgeOrderOpen sw close = false := by
  have hnone : (s.cfg.flippers.items.any fun f : FlipSettings =>
      f.inUse && (decide (f.button = sw) || decide (f.eos = some sw))) = false := by
    rw [items_eq_map_get, List.any_map, List.any_eq_false]
    intro f _
    simpa [Watches, and_or_left] using not_watches_of_noFlipper h f
  rw [State.edgeOrderOpen, hnone, Bool.and_false]

/-- An edge of a switch that no flipper watches is the rules' alone, where no reset cuts it. -/
theorem edge_of_noFlipper {s : State} {sw : Sw} (h : Pre.noFlipper s sw) (hreset : ¬ Pre.resetNext s)
    (close : Bool) : edge s sw close = rulesApplied s sw close := by
  have hno : s.resetNext = false := Bool.eq_false_iff.mpr fun hr => hreset (pre_resetNext_of_resetNext hr)
  have hcfg : (applyRules s sw close).cfg = s.cfg := applyRules_cfg s sw close
  have hkept : Pre.noFlipper (applyRules s sw close) sw := by
    rw [Pre.noFlipper, hcfg]
    exact h
  rw [edge, hno, edgeOrderOpen_of_noFlipper h, Bool.false_and, if_neg Bool.false_ne_true,
    if_neg Bool.false_ne_true, flippersLevel_of_noFlipper hkept, applyRules_eq_rulesApplied]

/-- Settles O51: `edge_made` for the edge of each debounce end, and `edge_of_noFlipper` where the rules are alone. -/
theorem debounceEndMakesTheEdge : Obligations.DebounceEndMakesTheEdge := by
  refine ⟨?closing, ?opening, ?closingRules, ?openingRules, fun s sw due => exec_debounceEnd_stuck,
    fun s sw close h => flippersLevel_of_noFlipper h close⟩
  case closing =>
    intro s sw due h
    exact ⟨_, exec_debounceEnd_closing h, edge_made _ sw true⟩
  case opening =>
    intro s sw due h
    exact ⟨_, exec_debounceEnd_opening h, edge_made _ sw false⟩
  case closingRules =>
    intro s sw due h hnoFlipper hreset
    rw [exec_debounceEnd_closing h]
    exact congrArg _ (edge_of_noFlipper (s := withSw s sw _) hnoFlipper hreset true)
  case openingRules =>
    intro s sw due h hnoFlipper hreset
    rw [exec_debounceEnd_opening h]
    exact congrArg _ (edge_of_noFlipper (s := withSw s sw _) hnoFlipper hreset false)

/-! ### A switch that one flipper alone watches -/

/-- With no rule for the switch, its edge reaches the one flipper that watches it and does nothing else. -/
theorem edge_of_watched {s : State} {sw : Sw} {f : Flip} (h : Pre.watched s sw f) (close : Bool) :
    edge s sw close = flipperLevel s sw close f := by
  obtain ⟨hrules, -, halone⟩ := h
  have hnoRule : s.edgeRules sw close = [] := by
    rw [edgeRules_eq_rulesOf, rulesOf]
    split
    · rw [List.filter_eq_nil_iff]
      intro r hr
      obtain ⟨i, -, rfl⟩ := List.mem_map.mp hr
      simpa using fun huse hsw => absurd hsw (hrules i huse)
    · rfl
  rw [edge_of_no_rule hnoRule, flippersLevel_of_alone fun g hg hwatches => ?_]
  obtain ⟨huse, hbutton | heos⟩ := hwatches
  · exact (halone g hg huse).1 hbutton
  · exact (halone g hg huse).2 heos

theorem edge_of_button {s : State} {sw : Sw} {f : Flip} (h : Pre.button s sw f) (close : Bool) :
    edge s sw close =
      if close = true then if Pre.press s f then pressed s f else s else flipperRested s f := by
  obtain ⟨hwatched, hbutton, -⟩ := h
  rw [edge_of_watched hwatched, flipperLevel_of_button hwatched.2.1 hbutton]

theorem edge_of_eos {s : State} {sw : Sw} {f : Flip} (h : Pre.eos s sw f) (close : Bool) :
    edge s sw close = if close = true then eosClosed s f else eosOpened s f := by
  obtain ⟨hwatched, hbutton, heos⟩ := h
  rw [edge_of_watched hwatched, flipperLevel_of_eos hwatched.2.1 hbutton heos]

/-- A TIMED press heeds no EOS edge (R76). -/
theorem edge_of_eos_timed {s : State} {sw : Sw} {f : Flip} (h : Pre.eos s sw f) (htimed : (s.fl.get f).timed = true)
    (close : Bool) : edge s sw close = s := by
  have hnotOver : ¬ Pre.windowOver s f := fun ⟨_, hnot, _⟩ => absurd htimed (by simp [hnot])
  have hnoRepower : ¬ Pre.repower s f := fun ⟨_, hnot, _⟩ => absurd htimed (by simp [hnot])
  rw [edge_of_eos h]
  cases close
  · exact if_neg hnoRepower
  · exact if_neg hnotOver

/-- Settles O52: a row each from `edge_of_button` and `edge_of_eos`, and `flipperLevel_eq` for every flipper. -/
theorem flippersAnswerTheirSwitches : Obligations.FlippersAnswerTheirSwitches := by
  refine ⟨?press, ?noPress, ?buttonOpen, ?eosClose, ?eosOpen, ?timed, ?every⟩
  case press =>
    intro s sw due f h hbutton hpress
    rw [exec_debounceEnd_closing h, edge_of_button (s := withSw s sw _) hbutton]
    exact congrArg _ (if_pos hpress)
  case noPress =>
    intro s sw due f h hbutton hpress
    rw [exec_debounceEnd_closing h, edge_of_button (s := withSw s sw _) hbutton]
    exact congrArg _ (if_neg hpress)
  case buttonOpen =>
    intro s sw due f h hbutton
    rw [exec_debounceEnd_opening h, edge_of_button (s := withSw s sw _) hbutton]
    rfl
  case eosClose =>
    intro s sw due f h heos
    rw [exec_debounceEnd_closing h, edge_of_eos (s := withSw s sw _) heos]
    rfl
  case eosOpen =>
    intro s sw due f h heos
    rw [exec_debounceEnd_opening h, edge_of_eos (s := withSw s sw _) heos]
    rfl
  case timed =>
    intro s sw st due f h hst heos htimed
    rcases hst with rfl | rfl
    · rw [exec_debounceEnd_closing h, edge_of_eos_timed (s := withSw s sw _) heos htimed]
      rfl
    · rw [exec_debounceEnd_opening h, edge_of_eos_timed (s := withSw s sw _) heos htimed]
      rfl
  case every =>
    intro s sw closed
    simp only [flippersLevel, flipperLevel_eq]

/-! ### The ends of a flipper's phases (R77, R80, R81) -/

theorem level_iff (st : SwState) : st.level = true ↔ st = .closed ∨ st = .opening ∨ st = .stuck := by
  cases st <;> simp [SwState.level]

theorem limitDue_of {s : State} {f : Flip} {due : Tick} (h : Pre.holdLimit s f due) : s.limitDue f = true := by
  obtain ⟨hstate, hend, hnot, hreached⟩ := h
  unfold State.limitDue
  dsimp only
  rw [hend]
  simpa [hnot, hreached] using hstate

/-- Settles O54: the hypotheses are each row's own test. -/
theorem flipperPhasesEndInHold : Obligations.FlipperPhasesEndInHold := by
  refine ⟨?window, fun s f h => if_pos h, fun s f h => if_pos h, fun s f due h => if_pos (limitDue_of h)⟩
  intro s f eos ⟨⟨hpower, hnotTimed, hover⟩, heos, hlevel⟩
  have hclosed : s.eosLevel f = some true := by
    rw [State.eosLevel, heos, Option.map_some, State.switchClosed, (level_iff _).mpr hlevel]
  exact if_pos ⟨hpower, hnotTimed, hover, hclosed⟩

end Sys2Proof.Proofs
end

section
/-! Resets, straps and the timers of the start loader (O56, O59). -/

namespace Sys2Proof.Proofs
open Sys2Proof.Machine

/-! ### UNCONFIGURED and the straps (R130, R177, R180) -/

/-- The STATUS frame of page 0 handed, and the next timed from the mark it fell at. -/
theorem handStatus_eq (s : State) (due : Tick) :
    handStatus s due = { s with
      lc := (pageShown s 0).foldl (fun lc p => lc.hand (statusOf s p)) s.lc
      sl := { s.sl with statusDue := due + 10000 } } := by
  unfold handStatus
  dsimp only
  rw [statusFrames_eq s (by decide : 0 ≤ 22), List.foldl_map]
  rfl

/-- The play state's byte: the code of the state, with bit 7 while stopped. -/
theorem byte_playCode (p : Play) (stateCode : Nat) (h : p.code = stateCode + if p.stopped then 128 else 0) :
    byte p.code = byte stateCode + if p.stopped = true then 128 else 0 := by
  rw [h]
  cases p.stopped
  · exact (BitVec.add_zero _).symm
  · exact BitVec.ofNat_add _ _

/-- The own STATUS frame of page 0 is made once LC has started: its link codes are those of a started LC. -/
theorem enterUnconfigured_eq (s : State) (reason : Reason) (rate500 : Bool) :
    enterUnconfigured s reason rate500 = unconfigured s reason (byte reason.code) rate500 := by
  unfold enterUnconfigured handStatus unconfigured
  dsimp only
  refine congrArg (fun lc => { s with
    sl := { s.sl with station := .unconfigured, reason := reason, statusDue := s.tick + 10000 }, lc := lc }) ?_
  refine congrArg (linkStarted s.lc rate500).hand (congrArg (statusOf s) ?_)
  exact congrArg (fun code => [0, 4, code, 0, 0, 0, byte s.own.toNat, byte reason.code]) (byte_playCode s.pc _ rfl)

theorem readStraps_63 (s : State) : readStraps s 63 = unnumbered s := enterUnconfigured_eq _ _ _

theorem readStraps_of_number (s : State) {straps : BitVec 6} {i : Fin 63} (h : Pre.number straps i) :
    readStraps s straps = numbered s straps i := by
  have hne : straps ≠ 63 := by
    rintro rfl
    exact absurd i.isLt (by rw [show i.val = 63 from h.symm]; decide)
  unfold readStraps
  dsimp only
  rw [if_neg hne]
  unfold markOwn
  dsimp only
  rw [show standingIdx (State.own { s with sl := { s.sl with
    number := straps, resetLow := false, station := .loading } }) = some i from standingIdx_eq_some_iff.mpr h]
  rfl

/-! ### Reset values (R27, R28, R37, R71, R88, R114, R123, R129, R146, R160, R169, R170) -/

theorem resetValues_powerOn (s : State) (low : Bool) : ResetValues (powerOn s low) low := by
  refine ⟨rfl, rfl, rfl, rfl, rfl, rfl, rfl, rfl, rfl, rfl, rfl, fun n => ?_, rfl, rfl, rfl, rfl, rfl, rfl, rfl, rfl,
    fun n => ⟨Bank.get_fill n _, Bank.get_fill n _⟩, rfl, rfl, rfl, fun i => Bank.get_fill i _, rfl, rfl, rfl,
    fun f => Bank.get_fill f _, fun i => Bank.get_fill i _, rfl, fun l => Bank.get_fill l _, rfl, rfl, rfl, rfl, rfl,
    rfl, fun i => Bank.get_fill i _, fun i => Bank.get_fill i _, rfl, rfl, rfl⟩
  have hch : (powerOn s low).ch n = Channel.reset := Bank.get_fill n _
  rw [hch]
  rfl

/-- LC as both resets leave it, whatever it still drives. -/
theorem linkReset_reset (rate500 : Bool) (stopLeft resetLeft : Nat) :
    LinkReset { Link.reset with rate500 := rate500, stopLeft := stopLeft, resetLeft := resetLeft } :=
  ⟨rfl, rfl, rfl, rfl, rfl, fun i => Bank.get_fill i _, rfl, rfl, rfl, rfl, rfl, rfl, rfl, rfl, rfl, rfl⟩

theorem poweredOn (s : State) (low : Bool) : PoweredOn s (powerOn s low) low := by
  refine ⟨resetValues_powerOn s low, linkReset_reset false 0 0, fun n => ?_, rfl, rfl, rfl, rfl, rfl, rfl⟩
  have hch : (powerOn s low).ch n = Channel.reset := Bank.get_fill n _
  rw [hch]
  rfl

theorem lineReset_ch (s : State) (n : Out) :
    (lineReset s).ch n = { channelReset with heat := (s.ch n).heat } := Bank.get_mapIdx _ _ n

/-- The reset line leaves what power-on leaves, but the heat of each output. -/
theorem resetValues_lineReset (s : State) : ResetValues (lineReset s) true := by
  obtain ⟨htick, hunit, hfalling, hended, hbit, hstation, hreason, hlow, hnumber, hjoin, hstatus, -, hrest⟩ :=
    resetValues_powerOn s true
  refine ⟨htick, hunit, hfalling, hended, hbit, hstation, hreason, hlow, hnumber, hjoin, hstatus, fun n => ?_, hrest⟩
  rw [lineReset_ch]

theorem resetDrive_eq (lc : Link) : lc.resetDrive = resetBits lc := by
  have hdominant : lc.signalDominant =
      if lc.sigLeft = 8 then decide (lc.state = .active) else lc.sigDominant := rfl
  unfold Link.resetDrive resetBits
  rw [hdominant]
  rfl

/-- Settles O56: each reset is `powerOn` or `lineReset`, the straps read by `readStraps`. -/
theorem resetsLeaveTheResetValues : Obligations.ResetsLeaveTheResetValues := by
  refine ⟨fun s straps => ⟨_, rfl, poweredOn s true⟩, ?number, ?unnumbered, ?assert,
    ?releaseNumber, ?releaseUnnumbered⟩
  case number =>
    intro s straps i h
    exact ⟨powerOn s false, congrArg _ (readStraps_of_number _ h), poweredOn s false⟩
  case unnumbered =>
    intro s
    exact ⟨powerOn s false, congrArg Host.Outcome.next (readStraps_63 (powerOn s false)), poweredOn s false⟩
  case assert =>
    intro s
    refine ⟨lineReset s, rfl, resetValues_lineReset s, linkReset_reset _ _ _, fun n => ?_, rfl, rfl, rfl, rfl, rfl, ?_⟩
    · rw [lineReset_ch]
    · rw [← resetDrive_eq]
      rfl
  case releaseNumber =>
    intro s straps i hstation hlow h
    exact (if_pos ⟨hstation, hlow⟩).trans (congrArg _ (readStraps_of_number s h))
  case releaseUnnumbered =>
    intro s hstation hlow
    exact (if_pos ⟨hstation, hlow⟩).trans (congrArg _ (readStraps_63 s))

/-! ### The timers of the start loader (R65, R116, R179, R180) -/

/-- Settles O59: both commands pass their own test. -/
theorem stationTimersRunOut : Obligations.StationTimersRunOut := by
  refine ⟨fun s h => if_pos h, fun s h => ?_⟩
  exact (if_pos h).trans (congrArg _ (handStatus_eq s _))

end Sys2Proof.Proofs
end

section
/-! The configuration image: its records as spans of its bytes, and the station settings, coil profiles and flipper
records with their checks (for O57). -/

namespace Sys2Proof.Proofs
open Sys2Proof.Machine

/-! ### Records as spans of the image (Table 12-5) -/

/-- The record `r` is the `size` bytes of the image from address `a`. -/
def Spans (im r : List Byte) (a size : Nat) : Prop := ∀ j, j < size → r.getD j 0 = im.getD (a + j) 0

theorem spans_record (im : List Byte) (base size i : Nat) :
    Spans im (record im base size i) (base + size * i) size := by
  intro j hj
  simp [record, List.getD, hj, List.getElem?_drop]

theorem signed_eq (b : Byte) : b.toInt = if b.toNat < 128 then (b.toNat : Int) else b.toNat - 256 := by
  have hb := b.isLt
  rw [BitVec.toInt_eq_toNat_cond]
  by_cases h : b.toNat < 128
  · rw [if_pos (by omega), if_pos h]
  · rw [if_neg (by omega), if_neg h]
    rfl

section Record
variable {im r : List Byte} {a size : Nat} (h : Spans im r a size)
include h

theorem rByte_of {j : Nat} (hj : j < size) : rByte r j = imageByte im (a + j) := congrArg BitVec.toNat (h j hj)

theorem rWord_of {j : Nat} (hj : j + 1 < size) : rWord r j = imageWord im (a + j) := by
  rw [rWord, rByte_of h (Nat.lt_of_succ_lt hj), rByte_of h hj]
  rfl

theorem rSigned_of {j : Nat} (hj : j < size) : rSigned r j = imageSigned im (a + j) := by
  rw [rSigned, h j hj, signed_eq]
  rfl

end Record

theorem imageByte_lt (im : List Byte) (a : Nat) : imageByte im a < 256 := (im.getD a 0).isLt

theorem bitOf_iff (b i : Nat) : bitOf b i = true ↔ b / 2 ^ i % 2 = 1 := decide_eq_true_iff

theorem finOf_val {n v : Nat} [NeZero n] (h : v < n) : (finOf n v).val = v := Nat.mod_eq_of_lt h

theorem within_iff (low high n : Nat) : within low high n = true ↔ Between low n high := by
  rw [within, Bool.and_eq_true, decide_eq_true_iff, decide_eq_true_iff]

theorem offsetOk_iff (x : Int) : offsetOk x = true ↔ -32 ≤ x ∧ x ≤ 31 := by
  rw [offsetOk, Bool.and_eq_true, decide_eq_true_iff, decide_eq_true_iff]

theorem lt_four_cases {code : Nat} (h : code < 4) : code = 0 ∨ code = 1 ∨ code = 2 ∨ code = 3 := by omega

theorem burstOf_eq {code : Nat} (h : code < 4) : burstOf code = sizeOf_ code := by
  rcases lt_four_cases h with rfl | rfl | rfl | rfl <;> rfl

/-! ### Station settings -/

theorem readStation_eq (im : List Byte) :
    readStation (stationRec im) =
      ⟨decide (ImageBit im 3 0), decide (ImageBit im 3 1), imageWord im 4, imageWord im 6, imageWord im 8,
        imageWord im 10, imageWord im 12, imageSigned im 14, imageByte im 15, imageWord im 16, imageByte im 18⟩ := by
  have h : Spans im (stationRec im) 3 16 := spans_record im 3 16 0
  simp only [readStation, bitOf, rByte_of h, rWord_of h, rSigned_of h, Nat.reduceAdd, Nat.reduceLT]

theorem stationOk_iff (im : List Byte) : stationOk (stationRec im) = true ↔ StationHolds im := by
  simp only [stationOk, readStation_eq, StationHolds, Bool.and_eq_true, within_iff, offsetOk_iff, decide_eq_true_iff,
    and_assoc]

/-! ### Coil profiles -/

section Profile
variable {im r : List Byte} {a : Nat} (h : Spans im r a 20)
include h

theorem readProfile_mode : (readProfile r).mode = (profileAt im a).mode := by
  have hcode : bitsOf (rByte r 0) 1 0 = imageByte im a % 4 := by simp [bitsOf, rByte_of h]
  have hlt : imageByte im a % 4 < 4 := Nat.mod_lt _ (by decide)
  unfold readProfile profileAt
  dsimp only
  rw [hcode]
  generalize imageByte im a % 4 = code at hlt
  rcases lt_four_cases hlt with rfl | rfl | rfl | rfl <;> rfl

theorem readProfile_burst : (readProfile r).burst = (profileAt im a).burst := by
  have hcode : bitsOf (rByte r 0) 5 4 = imageByte im a / 16 % 4 := by simp [bitsOf, rByte_of h]
  show burstOf (bitsOf (rByte r 0) 5 4) = sizeOf_ _
  rw [hcode, burstOf_eq (Nat.mod_lt _ (by decide))]

theorem readProfile_eq : readProfile r = profileAt im a := by
  have hdepth : imageByte im a / 64 % 4 = imageByte im a / 64 :=
    Nat.mod_eq_of_lt (by have := imageByte_lt im a; omega)
  have hrest : readProfile r =
      { profileAt im a with mode := (readProfile r).mode, burst := (readProfile r).burst } := by
    simp [readProfile, profileAt, bitsOf, rByte_of h, rWord_of h, rSigned_of h, hdepth]
  rw [hrest, readProfile_mode h, readProfile_burst h]

theorem profileOk_iff : profileOk r = true ↔ ProfileHolds im a := by
  have hlt : imageByte im a % 4 < 4 := Nat.mod_lt _ (by decide)
  unfold profileOk
  rw [readProfile_eq h]
  unfold ProfileHolds
  generalize hcode : imageByte im a % 4 = code at hlt
  rcases lt_four_cases hlt with rfl | rfl | rfl | rfl <;>
    simp [profileAt, hcode, within_iff, offsetOk_iff, and_assoc]

end Profile

theorem profileRec_mode (im : List Byte) (n : Nat) :
    (readProfile (profileRec im n)).mode = (profileAt im (19 + 20 * n)).mode :=
  readProfile_mode (spans_record im 19 20 n)

theorem flipperMode_iff (im : List Byte) (n : Nat) :
    (readProfile (profileRec im n)).mode = .flipper ↔ modeCode im n = 3 := by
  rw [profileRec_mode]
  unfold profileAt modeCode
  have hlt : imageByte im (19 + 20 * n) % 4 < 4 := Nat.mod_lt _ (by decide)
  dsimp only
  generalize imageByte im (19 + 20 * n) % 4 = code at hlt
  rcases lt_four_cases hlt with rfl | rfl | rfl | rfl <;> simp

theorem csMode_iff (im : List Byte) (n : Nat) :
    (readProfile (profileRec im n)).mode.isCS = true ↔ modeCode im n = 1 ∨ modeCode im n = 2 := by
  rw [profileRec_mode]
  unfold profileAt modeCode
  have hlt : imageByte im (19 + 20 * n) % 4 < 4 := Nat.mod_lt _ (by decide)
  dsimp only
  generalize imageByte im (19 + 20 * n) % 4 = code at hlt
  rcases lt_four_cases hlt with rfl | rfl | rfl | rfl <;> simp [CoilMode.isCS]

/-! ### Flipper records (R72) -/

section Flipper
variable {im r : List Byte} {a : Nat} (h : Spans im r a 13)
include h

theorem readFlipper_inUse_iff : (readFlipper r).inUse = true ↔ ImageBit im a 7 := by
  show bitOf (rByte r 0) 7 = true ↔ _
  rw [rByte_of h (by decide), bitOf_iff]
  rfl

theorem flipperOuts_of_used (huse : ImageBit im a 7) :
    flipperOuts r =
      imageByte im (a + 2) :: if imageByte im (a + 3) = 255 then [] else [imageByte im (a + 3)] := by
  refine (if_pos ((readFlipper_inUse_iff h).mpr huse)).trans ?_
  rw [rByte_of h (by decide), rByte_of h (by decide)]

theorem flipperOuts_of_unused (huse : ¬ ImageBit im a 7) : flipperOuts r = [] :=
  if_neg fun hr => huse ((readFlipper_inUse_iff h).mp hr)

theorem mem_flipperOuts_iff {n : Nat} : n ∈ flipperOuts r ↔ NamesOutput im a n := by
  unfold NamesOutput
  by_cases huse : ImageBit im a 7
  · rw [flipperOuts_of_used h huse, List.mem_cons, eq_comm, and_iff_right huse]
    refine or_congr Iff.rfl ?_
    by_cases hhold : imageByte im (a + 3) = 255
    · rw [if_pos hhold]
      simp only [List.not_mem_nil, false_iff]
      omega
    · rw [if_neg hhold, List.mem_singleton]
      omega
  · rw [flipperOuts_of_unused h huse]
    exact ⟨fun hn => absurd hn List.not_mem_nil, fun hn => absurd hn.1 huse⟩

theorem nodup_flipperOuts_iff (huse : ImageBit im a 7) : (flipperOuts r).Nodup ↔
    (imageByte im (a + 3) ≠ 255 → imageByte im (a + 3) ≠ imageByte im (a + 2)) := by
  rw [flipperOuts_of_used h huse]
  by_cases hhold : imageByte im (a + 3) = 255
  · rw [if_pos hhold]
    exact ⟨fun _ hne => absurd hhold hne, fun _ => List.pairwise_singleton _ _⟩
  · rw [if_neg hhold, List.nodup_cons, List.mem_singleton, eq_comm]
    exact ⟨fun hn _ => hn.1, fun hn => ⟨hn hhold, List.pairwise_singleton _ _⟩⟩

/-- Every output that a flipper record in use names is an output in mode FLIPPER. -/
theorem all_flipperOuts_iff (huse : ImageBit im a 7) :
    ((flipperOuts r).all fun n =>
        decide (n ≤ 15) && decide ((readProfile (profileRec im n)).mode = .flipper)) = true ↔
      (imageByte im (a + 2) ≤ 15 ∧ modeCode im (imageByte im (a + 2)) = 3) ∧
      (imageByte im (a + 3) ≠ 255 →
        imageByte im (a + 3) ≤ 15 ∧ modeCode im (imageByte im (a + 3)) = 3) := by
  simp only [List.all_eq_true, mem_flipperOuts_iff h, NamesOutput, Bool.and_eq_true, decide_eq_true_iff,
    flipperMode_iff]
  constructor
  · intro hall
    exact ⟨hall _ ⟨huse, .inl rfl⟩, fun hne => hall _ ⟨huse, .inr ⟨rfl, hne⟩⟩⟩
  · rintro ⟨hpower, hhold⟩ n ⟨-, rfl | ⟨rfl, hne⟩⟩
    · exact hpower
    · exact hhold hne

/-- A flipper record passes its own check and names no output twice: the record of Table 12-1. -/
theorem flipperOk_iff : (flipperOk im r = true ∧ (flipperOuts r).Nodup) ↔ FlipperHolds im a := by
  unfold FlipperHolds
  by_cases huse : ImageBit im a 7
  · have hinUse := (readFlipper_inUse_iff h).mpr huse
    have hholdSome : (readFlipper r).hold.isSome = true ↔ imageByte im (a + 3) ≠ 255 := by
      show Option.isSome (if rByte r 3 = 255 then none else some _) = true ↔ _
      rw [rByte_of h (by decide)]
      split <;> simp [*]
    have hmax : (readFlipper r).maxPower = imageWord im (a + 4) := rWord_of h (by decide)
    have hmin : (readFlipper r).minPower = imageWord im (a + 6) := rWord_of h (by decide)
    have hsoft : (readFlipper r).softPower = imageWord im (a + 8) := rWord_of h (by decide)
    have hlimit : (readFlipper r).holdLimit = imageWord im (a + 11) := rWord_of h (by decide)
    have hduty : (readFlipper r).duty = imageByte im (a + 10) % 16 := by
      show bitsOf (rByte r 10) 3 0 = _
      simp [bitsOf, rByte_of h]
    have hbutton : bitsOf (rByte r 0) 4 0 = imageByte im a % 32 := by
      simp [bitsOf, rByte_of h]
    have heos : rByte r 1 = imageByte im (a + 1) := rByte_of h (by decide)
    rw [nodup_flipperOuts_iff h huse]
    unfold flipperOk
    simp only [hinUse, Bool.not_true, Bool.false_or, Bool.and_eq_true, all_flipperOuts_iff h huse, within_iff,
      decide_eq_true_iff, Bool.or_eq_true, hholdSome, hmax, hmin, hsoft, hlimit, hduty, hbutton, heos]
    constructor
    · rintro ⟨⟨⟨⟨⟨⟨⟨⟨⟨⟨hpower, hhold⟩, hb⟩, he⟩, hbe⟩, hmx⟩, hmn⟩, hsf⟩, hd⟩, hl⟩, hne⟩ -
      refine ⟨hpower, ?_, hb, he, hbe, hmx, hmn, hsf, hl⟩
      by_cases hsingle : imageByte im (a + 3) = 255
      · exact .inl ⟨hsingle, hd.resolve_left fun h => h hsingle⟩
      · exact .inr ⟨(hhold hsingle).1, (hhold hsingle).2, hne hsingle⟩
    · intro hrecord
      obtain ⟨hpower, hhold, hb, he, hbe, hmx, hmn, hsf, hl⟩ := hrecord huse
      rcases hhold with ⟨hsingle, hd⟩ | ⟨hle, hmode, hne⟩
      · exact ⟨⟨⟨⟨⟨⟨⟨⟨⟨⟨hpower, fun h => absurd hsingle h⟩, hb⟩, he⟩, hbe⟩, hmx⟩, hmn⟩, hsf⟩, .inr hd⟩, hl⟩,
          fun h => absurd hsingle h⟩
      · exact ⟨⟨⟨⟨⟨⟨⟨⟨⟨⟨hpower, fun _ => ⟨hle, hmode⟩⟩, hb⟩, he⟩, hbe⟩, hmx⟩, hmn⟩, hsf⟩,
          .inl fun hsingle => by omega⟩, hl⟩, fun _ => hne⟩
  · have hinUse : (readFlipper r).inUse = false :=
      Bool.eq_false_iff.mpr fun hr => huse ((readFlipper_inUse_iff h).mp hr)
    refine ⟨fun _ hu => absurd hu huse, fun _ => ⟨?_, ?_⟩⟩
    · simp [flipperOk, hinUse]
    · rw [flipperOuts_of_unused h huse]
      exact List.nodup_nil

end Flipper

end Sys2Proof.Proofs
end

section
/-! The rest of the image: switches, rules, filters and actions with their checks, and the four checks in their order
(for O57). -/

namespace Sys2Proof.Proofs
open Sys2Proof.Machine

/-! ### The four flipper records together (R72) -/

theorem spans_flipperRec (im : List Byte) (i : Nat) : Spans im (flipperRec im i) (339 + 13 * i) 13 :=
  spans_record im 339 13 i

/-- No output is named twice: by no record, and by no two. -/
theorem nodup_allFlipperOuts_iff (im : List Byte) :
    (allFlipperOuts im).Nodup ↔
      (∀ i, i < 4 → (flipperOuts (flipperRec im i)).Nodup) ∧
      ∀ i j n, i < 4 → j < 4 → i ≠ j → ¬ (NamesOutput im (339 + 13 * i) n ∧ NamesOutput im (339 + 13 * j) n) := by
  have hrange : allFlipperOuts im = (List.range 4).flatMap fun i => flipperOuts (flipperRec im i) := rfl
  have hmem (i n : Nat) : n ∈ flipperOuts (flipperRec im i) ↔ NamesOutput im (339 + 13 * i) n :=
    mem_flipperOuts_iff (spans_flipperRec im i)
  rw [hrange, List.Nodup, List.pairwise_flatMap, List.pairwise_iff_getElem]
  simp only [List.mem_range, List.length_range, List.getElem_range, hmem]
  refine and_congr Iff.rfl ⟨fun h i j n hi hj hne hboth => ?_, fun h i j hi hj hlt x hx y hy heq => ?_⟩
  · rcases Nat.lt_or_gt_of_ne hne with hlt | hgt
    · exact h i j hi hj hlt n hboth.1 n hboth.2 rfl
    · exact h j i hj hi hgt n hboth.2 n hboth.1 rfl
  · exact h i j x hi hj (Nat.ne_of_lt hlt) ⟨hx, heq ▸ hy⟩

theorem mem_allFlipperOuts_iff (im : List Byte) (n : Nat) :
    n ∈ allFlipperOuts im ↔ ∃ i, i < 4 ∧ NamesOutput im (339 + 13 * i) n := by
  have hrange : allFlipperOuts im = (List.range 4).flatMap fun i => flipperOuts (flipperRec im i) := rfl
  simp only [hrange, List.mem_flatMap, List.mem_range, mem_flipperOuts_iff (spans_flipperRec im _)]

theorem flippersOk_iff (im : List Byte) :
    flippersOk im = true ↔
      (∀ i, i < 4 → FlipperHolds im (339 + 13 * i)) ∧
      (∀ i j n, i < 4 → j < 4 → i ≠ j → ¬ (NamesOutput im (339 + 13 * i) n ∧ NamesOutput im (339 + 13 * j) n)) ∧
      ∀ n, n < 16 → modeCode im n = 3 → ∃ i, i < 4 ∧ NamesOutput im (339 + 13 * i) n := by
  simp only [flippersOk, Bool.and_eq_true, decide_eq_true_iff, List.all_eq_true, List.mem_range,
    nodup_allFlipperOuts_iff, Bool.or_eq_true, List.contains_iff_mem, mem_allFlipperOuts_iff, ne_eq, flipperMode_iff,
    ← flipperOk_iff (spans_flipperRec im _), ← Decidable.imp_iff_not_or]
  constructor
  · rintro ⟨⟨⟨hnodup, hdisjoint⟩, hok⟩, hnamed⟩
    exact ⟨fun i hi => ⟨hok i hi, hnodup i hi⟩, hdisjoint, hnamed⟩
  · rintro ⟨hrecords, hdisjoint, hnamed⟩
    exact ⟨⟨⟨fun i hi => (hrecords i hi).2, hdisjoint⟩, fun i hi => (hrecords i hi).1⟩, hnamed⟩

/-! ### Switches, rules and filters -/

theorem readSwitch_eq {im r : List Byte} {a : Nat} (h : Spans im r a 5) : readSwitch r = switchAt im a := by
  simp only [readSwitch, switchAt, bitOf, rByte_of h, rWord_of h, Nat.reduceAdd, Nat.reduceLT, Nat.add_zero]

theorem switchOk_iff {im r : List Byte} {a : Nat} (h : Spans im r a 5) :
    switchOk r = true ↔
      1 ≤ imageByte im (a + 1) ∧ 1 ≤ imageByte im (a + 2) ∧ (imageWord im (a + 3) = 0 ∨ 10 ≤ imageWord im (a + 3)) := by
  simp [switchOk, readSwitch_eq h, switchAt, rWord_of h, and_assoc]

theorem spans_actionRec (im : List Byte) (i : Nat) : Spans im (actionRec im i) (751 + 7 * i) 7 :=
  spans_record im 751 7 i

theorem actionUsed_iff (im : List Byte) (i : Nat) : actionUsed im i = true ↔ ActionUsed im i := by
  rw [actionUsed, rByte_of (spans_actionRec im i) (by decide), Bool.and_eq_true, decide_eq_true_iff,
    decide_eq_true_iff]
  rfl

theorem eventPriority_eq (b : Nat) : bitsOf b 6 4 = b / 16 % 8 := rfl

theorem ruleOk_iff {im r : List Byte} {a : Nat} (h : Spans im r a 4) : ruleOk im r = true ↔ RuleHolds im a := by
  unfold ruleOk RuleHolds
  dsimp only
  rw [eventPriority_eq]
  simp only [rByte_of h, Nat.reduceLT, Nat.add_zero, Bool.or_eq_true, Bool.and_eq_true, Bool.not_eq_true',
    ← Bool.not_eq_true, decide_eq_true_iff, bitOf_iff, within_iff, actionUsed_iff, ← Decidable.imp_iff_not_or, and_assoc]

theorem filterOk_iff {im r : List Byte} {a : Nat} (h : Spans im r a 7) : filterOk im r = true ↔ FilterHolds im a := by
  have hcode : rByte r 0 = imageByte im a := rByte_of h (by decide)
  unfold filterOk FilterHolds
  split
  next h0 => simp [← hcode, h0]
  next h1 =>
    rw [← hcode, h1]
    simp [rByte_of h, bitOf_iff, ← Bool.not_eq_true, actionUsed_iff, and_assoc]
  next h2 =>
    rw [← hcode, h2]
    simp [rByte_of h, actionUsed_iff]
  next h0 h1 h2 =>
    rw [← hcode]
    refine ⟨fun hfalse => absurd hfalse Bool.false_ne_true, fun ⟨hle, _⟩ => ?_⟩
    have hthree : rByte r 0 = 0 ∨ rByte r 0 = 1 ∨ rByte r 0 = 2 := by omega
    rcases hthree with hr | hr | hr
    · exact absurd hr h0
    · exact absurd hr h1
    · exact absurd hr h2

/-! ### Actions (R167) -/

section Action
variable {im r : List Byte} {a : Nat} (h : Spans im r a 7)
include h

theorem actionOut_iff : actionOut im r = true ↔ imageByte im (a + 1) ≤ 15 ∧
    (modeCode im (imageByte im (a + 1)) = 1 ∨ modeCode im (imageByte im (a + 1)) = 2) := by
  rw [actionOut, rByte_of h (by decide), Bool.and_eq_true, decide_eq_true_iff, csMode_iff]

theorem trainSize_eq : bitsOf (rByte r 2) 4 2 = imageByte im (a + 2) / 4 % 8 := by
  rw [rByte_of h (by decide)]
  rfl

theorem actionOk_iff : actionOk im r = true ↔ ActionHolds im a := by
  have hcode : rByte r 0 = imageByte im a := rByte_of h (by decide)
  have hsecond : rByte r 2 = imageByte im (a + 2) := rByte_of h (by decide)
  unfold actionOk ActionHolds
  rw [← hcode]
  split
  next hr => simp [hr]
  next hr => simp [hr, actionOut_iff h]
  next hr => simp [hr, actionOut_iff h]
  next hr => simp [hr, actionOut_iff h]
  next hr =>
    rw [trainSize_eq h, hsecond]
    simp [hr, actionOut_iff h, rByte_of h, rWord_of h, bitOf_iff, within_iff, ImageBit, and_assoc]
  next hr =>
    rw [hsecond]
    simp [hr, actionOut_iff h, and_assoc]
  next hr => simp [hr, rByte_of h, and_assoc]
  next n h0 h1 h2 h3 h4 h5 h6 =>
    have hnot : rByte r 0 ≠ 0 ∧ rByte r 0 ≠ 1 ∧ rByte r 0 ≠ 2 ∧ rByte r 0 ≠ 3 ∧ rByte r 0 ≠ 4 ∧
        rByte r 0 ≠ 5 ∧ rByte r 0 ≠ 6 := ⟨h0, h1, h2, h3, h4, h5, h6⟩
    rw [decide_eq_true_iff]
    constructor
    · exact fun hle => ⟨hle, fun hb => by omega, fun hb => by omega, fun hb => by omega, fun hb => by omega⟩
    · exact fun hb => hb.1

end Action

/-! ### The checks in their order (R178) -/

theorem fieldsOk_iff (im : List Byte) : fieldsOk im = true ↔ FieldsHold im := by
  have hprofile (i : Nat) : profileOk (profileRec im i) = true ↔ ProfileHolds im (19 + 20 * i) :=
    profileOk_iff (spans_record im 19 20 i)
  have hswitch (i : Nat) := switchOk_iff (r := switchRec im i) (spans_record im 391 5 i)
  have hrule (i : Nat) : ruleOk im (ruleRec im i) = true ↔ RuleHolds im (511 + 4 * i) :=
    ruleOk_iff (spans_record im 511 4 i)
  have hfilter (i : Nat) : filterOk im (filterRec im i) = true ↔ FilterHolds im (639 + 7 * i) :=
    filterOk_iff (spans_record im 639 7 i)
  have haction (i : Nat) := actionOk_iff (spans_actionRec im i)
  simp only [fieldsOk, FieldsHold, Bool.and_eq_true, List.all_eq_true, List.mem_range, stationOk_iff, flippersOk_iff,
    and_assoc, hprofile, hswitch, hrule, hfilter, haction]

/-- Bytes past the end of an image read as 0 and add nothing. -/
theorem foldl_take_eq_sum (im : List Byte) (k : Nat) :
    (im.take k).foldl (fun n b => n + b.toNat) 0 = ((List.range k).map (imageByte im)).sum := by
  induction k with
  | zero => simp
  | succ k ih =>
    rw [List.take_add_one, List.foldl_append, ih, List.range_succ, List.map_append, List.sum_append]
    unfold imageByte List.getD
    cases hbyte : im[k]? <;> simp [hbyte]

theorem imageSum_eq (im : List Byte) : imageSum im = sumOf im := by
  rw [imageSum, foldl_take_eq_sum]
  rfl

theorem imageReason_eq (im : List Byte) :
    imageReason im =
      if imageByte im 0 ≠ 1 then .format
      else if imageWord im 1 ≠ 993 then .format
      else if sumOf im ≠ imageWord im 991 then .sum
      else if fieldsOk im then .none else .field := by
  rw [← imageSum_eq]
  rfl

end Sys2Proof.Proofs
end

section
/-! What an accepted image says of each setting, byte by byte, and the image taken or refused in LOADING (O57, O58). -/

namespace Sys2Proof.Proofs
open Sys2Proof.Machine

/-! ### The layout (Table 12-6) -/

theorem readLamp_eq {im r : List Byte} {a : Nat} (h : Spans im r a 1) :
    readLamp r = ⟨decide (ImageBit im a 7), decide (ImageBit im a 6), imageByte im a % 16⟩ := by
  simp [readLamp, bitOf, bitsOf, ImageBit, rByte_of h]

theorem finOf_option_val {n v : Nat} [NeZero n] (h : v = 255 ∨ v < n) :
    ((if v = 255 then none else some (finOf n v)).map fun x : Fin n => x.val) = if v = 255 then none else some v := by
  by_cases hv : v = 255
  · rw [if_pos hv, if_pos hv, Option.map_none]
  · rw [if_neg hv, if_neg hv, Option.map_some, finOf_val (h.resolve_left hv)]

theorem flipperAt_of {im r : List Byte} {a : Nat} (h : Spans im r a 13) (hok : FlipperHolds im a) :
    FlipperAt im a (readFlipper r) := by
  refine ⟨readFlipper_inUse_iff h, fun hinUse => ?_⟩
  obtain ⟨⟨hpower, -⟩, hhold, hbutton, heos, -⟩ := hok ((readFlipper_inUse_iff h).mp hinUse)
  have hholdByte : imageByte im (a + 3) = 255 ∨ imageByte im (a + 3) < 16 :=
    hhold.imp And.left fun hdual => Nat.lt_succ_of_le hdual.1
  have heosByte : imageByte im (a + 1) = 255 ∨ imageByte im (a + 1) < 24 :=
    heos.symm.imp_right Nat.lt_succ_of_le
  have hbuttonByte : bitsOf (imageByte im a) 4 0 = imageByte im a % 32 := by simp [bitsOf]
  simp only [readFlipper, rByte_of h, rWord_of h, Nat.reduceLT, Nat.reduceAdd, Nat.add_zero,
    finOf_option_val hholdByte, finOf_option_val heosByte, hbuttonByte, true_and]
  refine ⟨finOf_val (Nat.lt_succ_of_le hbutton), finOf_val (Nat.lt_succ_of_le hpower), ?_, ?_⟩ <;> simp [bitsOf]

theorem byte_toNat {n : Nat} (h : n < 256) : (byte n).toNat = n := Nat.mod_eq_of_lt h

theorem ruleAt_of {im r : List Byte} {a : Nat} (h : Spans im r a 4) (hok : RuleHolds im a) :
    RuleAt im a (readRule r) := by
  have hbit (i : Nat) : bitOf (rByte r 0) i = true ↔ ImageBit im a i := by
    rw [rByte_of h (by decide), bitOf_iff]
    rfl
  refine ⟨hbit 0, fun hinUse => ?_⟩
  obtain ⟨hsw, -, -, haction⟩ := hok ((hbit 0).mp hinUse)
  have hswitch : rByte r 1 = imageByte im (a + 1) := rByte_of h (by decide)
  have hact : rByte r 2 = imageByte im (a + 2) := rByte_of h (by decide)
  have hcode : rByte r 3 = imageByte im (a + 3) := rByte_of h (by decide)
  have hprio : bitsOf (rByte r 0) 6 4 = imageByte im a / 16 % 8 := by
    rw [rByte_of h (by decide), eventPriority_eq, Nat.add_zero]
  refine ⟨(finOf_val (by omega)).trans hswitch, hbit 1, ?_, ?_⟩
  · show Option.map _ (if bitOf (rByte r 0) 2 = true then _ else _) = _
    by_cases hb : ImageBit im a 2
    · obtain ⟨hle, -⟩ := haction hb
      rw [if_pos ((hbit 2).mpr hb), if_pos hb, Option.map_some, finOf_val (by omega), hact]
    · rw [if_neg fun hr => hb ((hbit 2).mp hr), if_neg hb, Option.map_none]
  · show Option.map _ (if bitOf (rByte r 0) 3 = true then _ else _) = _
    by_cases hb : ImageBit im a 3
    · have hprioNat : (BitVec.ofNat 3 (imageByte im a / 16 % 8)).toNat = imageByte im a / 16 % 8 :=
        Nat.mod_eq_of_lt (Nat.mod_lt _ (by decide))
      rw [if_pos ((hbit 3).mpr hb), if_pos hb, Option.map_some, hcode, hprio]
      show some ((byte (imageByte im (a + 3))).toNat, (BitVec.ofNat 3 (imageByte im a / 16 % 8)).toNat) = _
      rw [byte_toNat (imageByte_lt im _), hprioNat]
    · rw [if_neg fun hr => hb ((hbit 3).mp hr), if_neg hb, Option.map_none]

theorem imageWord_toNat (im : List Byte) (a : Nat) : (BitVec.ofNat 16 (imageWord im a)).toNat = imageWord im a := by
  have hhigh := imageByte_lt im a
  have hlow := imageByte_lt im (a + 1)
  rw [BitVec.toNat_ofNat]
  exact Nat.mod_eq_of_lt (by unfold imageWord; omega)

theorem filterAt_of {im r : List Byte} {a : Nat} (h : Spans im r a 7) (hok : FilterHolds im a) :
    FilterAt im a (readFilter r) := by
  have hcode : rByte r 0 = imageByte im a := rByte_of h (by decide)
  obtain ⟨-, hlist, hmask⟩ := hok
  unfold readFilter
  refine ⟨fun hk => ?_, fun hk => ?_, fun hk => ?_⟩
  · rw [hcode, hk]
    rfl
  · obtain ⟨-, -, ⟨hx, -⟩, hy, -⟩ := hlist hk
    rw [hcode, hk]
    simp only [rByte_of h, rWord_of h, Nat.reduceLT, Nat.reduceAdd]
    exact ⟨_, _, _, _, rfl, imageWord_toNat im _, finOf_val (by omega), imageWord_toNat im _, finOf_val (by omega)⟩
  · obtain ⟨hx, -⟩ := hmask hk
    rw [hcode, hk]
    simp only [rByte_of h, rWord_of h, Nat.reduceLT, Nat.reduceAdd]
    exact ⟨_, _, _, rfl, imageWord_toNat im _, imageWord_toNat im _, finOf_val (by omega)⟩

/-- The TRAIN parameters read from address a. -/
theorem readTrain_eq {im r : List Byte} {a : Nat} (h : Spans im r a 7) (hsize : imageByte im (a + 2) / 4 % 8 ≤ 4) :
    readTrain r = ⟨decide (ImageBit im (a + 2) 0), imageByte im (a + 3), imageWord im (a + 4),
      if imageByte im (a + 2) / 4 % 8 = 0 then none else some (sizeOf_ (imageByte im (a + 2) / 4 % 8 - 1)),
      if ImageBit im (a + 2) 1 then some (byte (imageByte im (a + 6))) else none⟩ := by
  have hburst : burstOf (imageByte im (a + 2) / 4 % 8 - 1) = sizeOf_ (imageByte im (a + 2) / 4 % 8 - 1) :=
    burstOf_eq (by omega)
  unfold readTrain
  rw [trainSize_eq h, hburst]
  simp only [rByte_of h, rWord_of h, Nat.reduceLT, Nat.reduceAdd, bitOf_iff]
  rfl

theorem lampModeOf_eq {k : Nat} (h : k ≤ 2) :
    (lampModeOf k).getD .off = if k = 0 then .off else if k = 1 then .on else .flash := by
  have hcases : k = 0 ∨ k = 1 ∨ k = 2 := by omega
  rcases hcases with rfl | rfl | rfl <;> rfl

theorem actionAt_of {im r : List Byte} {a : Nat} (h : Spans im r a 7) (hok : ActionHolds im a) :
    ActionAt im a (readAction r) := by
  have hcode : rByte r 0 = imageByte im a := rByte_of h (by decide)
  have hout : rByte r 1 = imageByte im (a + 1) := rByte_of h (by decide)
  have hsecond : rByte r 2 = imageByte im (a + 2) := rByte_of h (by decide)
  have hthird : rByte r 3 = imageByte im (a + 3) := rByte_of h (by decide)
  have hword : rWord r 4 = imageWord im (a + 4) := rWord_of h (by decide)
  obtain ⟨hle, hcoil, htrain, -, hlamp⟩ := hok
  have hval (hb : Between 1 (imageByte im a) 5) : (finOf 16 (imageByte im (a + 1))).val = imageByte im (a + 1) :=
    finOf_val (Nat.lt_succ_of_le (hcoil hb).1)
  unfold ActionAt readAction
  dsimp only
  rw [hcode, hout, hsecond, hthird, hword]
  generalize hkind : imageByte im a = kind at hle hval htrain hlamp
  have hcases : kind = 0 ∨ kind = 1 ∨ kind = 2 ∨ kind = 3 ∨ kind = 4 ∨ kind = 5 ∨ kind = 6 ∨ kind = 7 ∨ kind = 8 ∨
      kind = 9 ∨ kind = 10 ∨ kind = 11 := by omega
  rcases hcases with rfl | rfl | rfl | rfl | rfl | rfl | rfl | rfl | rfl | rfl | rfl | rfl
  · rfl
  · exact ⟨_, hval (by decide), rfl⟩
  · exact ⟨_, hval (by decide), rfl⟩
  · exact ⟨_, hval (by decide), rfl⟩
  · exact ⟨_, hval (by decide), congrArg _ (readTrain_eq h (htrain rfl).2.2)⟩
  · exact ⟨_, hval (by decide), rfl⟩
  · obtain ⟨hlampOut, hmode, -⟩ := hlamp rfl
    exact ⟨_, _, finOf_val (Nat.lt_succ_of_le hlampOut), lampModeOf_eq hmode, rfl⟩
  all_goals rfl

/-! ### The image checked (R178) -/

theorem imageReason_eq_none_iff (im : List Byte) :
    imageReason im = .none ↔
      imageByte im 0 = 1 ∧ imageWord im 1 = 993 ∧ sumOf im = imageWord im 991 ∧ FieldsHold im := by
  rw [imageReason_eq, ← fieldsOk_iff]
  by_cases hformat : imageByte im 0 = 1
  · by_cases hlength : imageWord im 1 = 993
    · by_cases hsum : sumOf im = imageWord im 991
      · by_cases hfields : fieldsOk im = true <;> simp [hformat, hlength, hsum, hfields]
      · simp [hformat, hlength, hsum]
    · simp [hformat, hlength]
  · simp [hformat]

/-- Settles O57: the checks are `imageReason_eq`, and each record of an accepted image has its own lemma. -/
theorem imageChecksAndLayout : Obligations.ImageChecksAndLayout := by
  refine ⟨?checks, ?layout⟩
  case checks =>
    intro im _
    rw [imageReason_eq]
    refine ⟨?_, fun hformat hlength => ⟨fun hsum => ?_, fun hsum => ⟨fun hfields => ?_, fun hfields => ?_⟩⟩⟩
    · rintro (hformat | hlength)
      · rw [if_pos hformat]
      · rw [if_pos hlength, ite_self]
    · rw [if_neg (not_not_intro hformat), if_neg (not_not_intro hlength), if_pos hsum]
    · rw [if_neg (not_not_intro hformat), if_neg (not_not_intro hlength), if_neg (not_not_intro hsum),
        if_neg fun hok => hfields ((fieldsOk_iff im).mp hok)]
    · rw [if_neg (not_not_intro hformat), if_neg (not_not_intro hlength), if_neg (not_not_intro hsum),
        if_pos ((fieldsOk_iff im).mpr hfields)]
  case layout =>
    intro im _ haccepted
    obtain ⟨-, -, -, -, -, hflippers, -, -, -, hrules, hfilters, hactions⟩ := (imageReason_eq_none_iff im).mp haccepted
    refine ⟨readStation_eq im, fun n => ?_, fun f => ?_, fun i => ?_, fun i => ?_, fun i => ?_, fun i => ?_,
      fun l => ?_⟩
    · exact (Bank.get_ofFn _ n).trans (readProfile_eq (spans_record im 19 20 n))
    · rw [show (readSettings im).flippers.get f = _ from Bank.get_ofFn _ f]
      exact flipperAt_of (spans_flipperRec im f) (hflippers f f.isLt)
    · exact (Bank.get_ofFn _ i).trans (readSwitch_eq (spans_record im 391 5 i))
    · rw [show (readSettings im).rules.get i = _ from Bank.get_ofFn _ i]
      exact ruleAt_of (spans_record im 511 4 i) (hrules i i.isLt)
    · rw [show (readSettings im).filters.get i = _ from Bank.get_ofFn _ i]
      exact filterAt_of (spans_record im 639 7 i) (hfilters i i.isLt)
    · rw [show (readSettings im).actions.get i = _ from Bank.get_ofFn _ i]
      exact actionAt_of (spans_actionRec im i) (hactions i i.isLt)
    · have hspan : Spans im (lampRec im l) (975 + l.val) 1 := by
        have h := spans_record im 975 1 l.val
        rwa [Nat.one_mul] at h
      exact (Bank.get_ofFn _ l).trans (readLamp_eq hspan)

/-! ### The image taken or refused (R27, R114, R115, R124, R130, R178, R179, R180) -/

theorem length_clocked (image : List Byte) (n : Nat) : (clocked n image).length = n := by
  simp [clocked]

/-- What the memory does not drive reads as 255. -/
theorem imageByte_clocked (image : List Byte) {n a : Nat} (h : a < n) :
    imageByte (clocked n image) a = if a < image.length then imageByte image a else 255 := by
  unfold imageByte clocked List.getD
  rw [List.getElem?_take, if_pos h]
  by_cases hin : a < image.length
  · rw [List.getElem?_append_left hin, if_pos hin]
  · rw [List.getElem?_append_right (Nat.not_lt.mp hin), List.getElem?_replicate,
      if_pos (by omega), if_neg hin]
    rfl

/-- A switch whose raw level is closed at acceptance is in CLOSING (R114). -/
theorem switchStart_eq (st : SwitchSettings) (now : Tick) (high : Bool) :
    Switch.start st now high =
      if high = st.invert then ⟨.closing, some (now + BitVec.ofNat 32 st.closeDebounce), none⟩
      else ⟨.open, none, none⟩ := by
  have hclosed : rawClosed st.invert high = true ↔ high = st.invert := beq_iff_eq
  unfold Switch.start
  dsimp only
  by_cases h : high = st.invert
  · rw [if_pos (hclosed.mpr h), if_pos h]
    rfl
  · rw [if_neg fun hr => h (hclosed.mp hr), if_neg h]

theorem exec_imageCheck_of_loading {s : State} (h : s.sl.station = .loading) (image : List Byte) :
    exec (.imageCheck image) s =
      if imageReason (clocked 993 image) = .none then .next (accept s (readSettings (clocked 993 image)))
      else .next (enterUnconfigured s (imageReason (clocked 993 image))
        (refusedRate (clocked 993 image) (imageReason (clocked 993 image)))) := by
  refine (if_pos h).trans ?_
  cases imageReason (clocked 993 image) <;> rfl

theorem accept_ch (s : State) (cfg : Settings) (n : Out) :
    (accept s cfg).ch n =
      { s.ch n with state := if (cfg.profiles.get n).mode = .flipper then .flipper else .off } :=
  Bank.get_mapIdx _ _ n

/-- Settles O58: `accept` field by field, and `enterUnconfigured_eq` for a refused image. -/
theorem imageIsAcceptedOrRefused : Obligations.ImageIsAcceptedOrRefused := by
  refine ⟨?accepted, ?format, ?field, fun image => ⟨length_clocked image 993, fun a => imageByte_clocked image⟩⟩
  case accepted =>
    intro s image ⟨hloading, hreason⟩
    refine ⟨accept s (readSettings (clocked 993 image)), ?_, rfl, rfl, rfl, rfl, fun n => accept_ch s _ n, rfl, rfl,
      rfl, rfl, fun l => Bank.get_ofFn _ l, fun i => ?_⟩
    · rw [exec_imageCheck_of_loading hloading, if_pos hreason]
    · exact (Bank.get_ofFn _ i).trans (switchStart_eq _ _ _)
  case format =>
    intro s image ⟨hloading, hreason⟩
    rw [exec_imageCheck_of_loading hloading, hreason, if_neg (by decide), enterUnconfigured_eq]
    rfl
  case field =>
    intro s image reason ⟨hloading, hreason⟩ hkind
    have hrate : (readStation (stationRec (clocked 993 image))).rate500 =
        decide (ImageBit (clocked 993 image) 3 0) := by rw [readStation_eq]
    rw [exec_imageCheck_of_loading hloading, hreason, enterUnconfigured_eq, ← hrate]
    rcases hkind with rfl | rfl
    · exact if_neg (by decide)
    · exact if_neg (by decide)

end Sys2Proof.Proofs
end

section
/-! The passing of time: what is due at an instant, and a step on an empty queue (O60). -/

namespace Sys2Proof.Proofs
open Sys2Proof.Machine

/-! ### The tests of what is due -/

section Tests
variable (s : State)

theorem beatLate_iff : s.beatLate = true ↔ ∃ f fails, s.lc.slots.get 1 = some ⟨f, false, fails⟩ ∧
    (4 ≤ s.lp.phase ∨ pByte f.payload 1 ≠ s.lp.beat.toNat) := by
  refine ⟨fun h => ?_, fun ⟨f, fails, hslot, hlate⟩ => beatLate_of hslot hlate⟩
  unfold State.beatLate at h
  split at h
  next sl hslot =>
    obtain ⟨f, onWire, fails⟩ := sl
    simp only [Bool.and_eq_true, Bool.not_eq_true', Bool.or_eq_true, decide_eq_true_iff] at h
    obtain ⟨rfl, hlate⟩ := h
    exact ⟨f, fails, hslot, hlate⟩
  next => exact absurd h Bool.false_ne_true

theorem phaseOver_iff (n : Out) (st : ChanState) : s.phaseOver n st = true ↔ Pre.over s n st := by
  rw [State.phaseOver, Bool.and_eq_true, decide_eq_true_iff]

theorem guardDue_iff (e : Entry) : s.guardDue e = true ↔
    e.guard = false ∧ 10 * s.cfg.station.skipGuard < (s.tick - e.arrival).toNat := by
  rw [State.guardDue, Bool.and_eq_true, decide_eq_true_iff, Bool.not_eq_true']
  rfl

theorem waitDue_iff (e : Entry) : s.waitDue e = true ↔
    ∃ w, (s.prof e.output).waitLimit = some w ∧ 10 * w ≤ (s.tick - e.arrival).toNat := by
  unfold State.waitDue
  cases (s.prof e.output).waitLimit with
  | none => simp
  | some w =>
    simp only [Option.some.injEq, exists_eq_left', decide_eq_true_iff]
    rfl

theorem debounceDue_iff (sw : Sw) : s.debounceDue sw = true ↔ ∃ st due, Pre.debounce s sw st due := by
  refine ⟨fun h => ?_, fun ⟨st, due, h⟩ => debounceDue_of h⟩
  unfold State.debounceDue at h
  split at h
  next due hend =>
    rw [Bool.and_eq_true] at h
    exact ⟨_, due, h.1, rfl, hend, h.2⟩
  next => exact absurd h Bool.false_ne_true

theorem stuckDue_iff (sw : Sw) : s.stuckDue sw = true ↔ ∃ due, Pre.stuck s sw due := by
  refine ⟨fun h => ?_, fun ⟨due, h⟩ => stuckDue_of h⟩
  unfold State.stuckDue at h
  dsimp only at h
  split at h
  next due hend =>
    simp only [Bool.and_eq_true, Bool.or_eq_true, decide_eq_true_iff] at h
    obtain ⟨⟨hview, hstate⟩, hreached⟩ := h
    exact ⟨due, hview, hstate, hend, hreached⟩
  next => exact absurd h Bool.false_ne_true

theorem limitDue_iff (f : Flip) : s.limitDue f = true ↔ ∃ due, Pre.holdLimit s f due := by
  refine ⟨fun h => ?_, fun ⟨due, h⟩ => limitDue_of h⟩
  unfold State.limitDue at h
  dsimp only at h
  split at h
  next due hend =>
    simp only [Bool.and_eq_true, Bool.or_eq_true, Bool.not_eq_true', decide_eq_true_iff] at h
    obtain ⟨⟨hstate, hnot⟩, hreached⟩ := h
    exact ⟨due, hstate, hend, hnot, hreached⟩
  next => exact absurd h Bool.false_ne_true

theorem eosLevel_eq_true_iff (f : Flip) : s.eosLevel f = some true ↔
    ∃ eos, (s.cfg.flippers.get f).eos = some eos ∧
      ((s.sw.sw.get eos).state = .closed ∨ (s.sw.sw.get eos).state = .opening ∨ (s.sw.sw.get eos).state = .stuck) := by
  simp only [State.eosLevel, Option.map_eq_some_iff, State.switchClosed, level_iff]

theorem windowEnd_iff (f : Flip) :
    ((s.fl.get f).state = .power ∧ (decide ((s.fl.get f).timed = false) && reached s.tick (s.fl.get f).windowEnd &&
        decide (s.eosLevel f = some true)) = true) ↔ ∃ eos, Pre.windowEnd s f eos := by
  simp only [Bool.and_eq_true, decide_eq_true_iff, eosLevel_eq_true_iff]
  constructor
  · rintro ⟨hpower, ⟨hnot, hover⟩, eos, heos, hlevel⟩
    exact ⟨eos, ⟨hpower, hnot, hover⟩, heos, hlevel⟩
  · rintro ⟨eos, ⟨hpower, hnot, hover⟩, heos, hlevel⟩
    exact ⟨hpower, ⟨hnot, hover⟩, eos, heos, hlevel⟩

end Tests

/-! ### What each part of the station has due -/

section Members
variable (s : State) (c : Instr)

theorem mem_dueFalling_iff : c ∈ dueFalling s ↔
    (.supplySlot ∈ s.falling ∧ c = .supplySlot) ∨ (.heatDecay ∈ s.falling ∧ c = .heatDecayPass) ∨
    (∃ l, (.window l ∈ s.falling ∧ s.sl.station = .run) ∧ c = .windowStart l) ∨
    (∃ beat, .beatZero beat ∈ s.falling) ∧ c = .beatPhaseZero := by
  unfold dueFalling
  rw [List.mem_filterMap]
  constructor
  · rintro ⟨f, hf, hc⟩
    cases f with
    | supplySlot => exact .inl ⟨hf, (Option.some.inj hc).symm⟩
    | heatDecay => exact .inr (.inl ⟨hf, (Option.some.inj hc).symm⟩)
    | window l =>
      obtain ⟨hrun, hc⟩ := Option.ite_none_right_eq_some.mp hc
      exact .inr (.inr (.inl ⟨l, ⟨hf, hrun⟩, (Option.some.inj hc).symm⟩))
    | beatZero beat => exact .inr (.inr (.inr ⟨⟨beat, hf⟩, (Option.some.inj hc).symm⟩))
  · rintro (⟨hf, rfl⟩ | ⟨hf, rfl⟩ | ⟨l, ⟨hf, hrun⟩, rfl⟩ | ⟨⟨beat, hf⟩, rfl⟩)
    · exact ⟨_, hf, rfl⟩
    · exact ⟨_, hf, rfl⟩
    · exact ⟨_, hf, if_pos hrun⟩
    · exact ⟨_, hf, rfl⟩

theorem mem_ite_singleton_iff {α : Type} {p : Prop} [Decidable p] {x y : α} :
    x ∈ (if p then [y] else []) ↔ p ∧ x = y := by
  rw [List.mem_ite_nil_right, List.mem_singleton]

theorem mem_dueStation_iff : c ∈ dueStation s ↔
    (Pre.joined s ∧ c = .joiningEnd) ∨ (Pre.statusDue s ∧ c = .unconfiguredStatus) ∨
    (s.beatLate = true ∧ c = .beatWithdraw) := by
  simp only [dueStation, List.mem_append, mem_ite_singleton_iff, or_assoc]

theorem mem_dueFlipper_iff (f : Flip) : c ∈ dueFlipper s f ↔
    ((∃ eos, Pre.windowEnd s f eos) ∧ c = .flipperWindowEnd f) ∨
    (Pre.flipperEnd s f .power ∧ c = .flipperPowerEnd f) ∨ (Pre.flipperEnd s f .repower ∧ c = .repowerEnd f) ∨
    (∃ due, Pre.holdLimit s f due) ∧ c = .holdLimitEnd f := by
  unfold dueFlipper
  dsimp only
  simp only [List.mem_append, mem_ite_singleton_iff, windowEnd_iff, limitDue_iff, or_assoc]

theorem mem_dueSwitches_iff : c ∈ dueSwitches s ↔
    (∃ sw, (∃ st due, Pre.debounce s sw st due) ∧ c = .debounceEnd sw) ∨
    ∃ sw, (∃ due, Pre.stuck s sw due) ∧ c = .stuckEnd sw := by
  simp only [dueSwitches, List.mem_append, List.mem_map, List.mem_filter, List.mem_finRange, true_and,
    debounceDue_iff, stuckDue_iff, @eq_comm Instr _ c]

theorem mem_dueBudget_iff : c ∈ dueBudget s ↔
    ((∃ e ∈ s.db.table, reached s.tick e.expiry = true) ∧ c = .entryExpiry) ∨
    (∃ i, Pre.ageing s i ∧ c = .ageingOut i) ∨ (∃ due, Pre.refresh s due) ∧ c = .refreshExpiry := by
  simp only [dueBudget, List.mem_append, List.mem_map, List.mem_filter, List.mem_finRange, true_and,
    mem_ite_singleton_iff, List.any_eq_true, ageDue_iff, refreshDue_iff, or_assoc, @eq_comm Instr _ c]

theorem mem_dueEntries_iff : c ∈ dueEntries s ↔
    (∃ e ∈ s.cs.queue, (e.guard = false ∧ 10 * s.cfg.station.skipGuard < (s.tick - e.arrival).toNat) ∧
      c = .guardPassed e.output) ∨
    ∃ e ∈ s.cs.queue, (∃ w, (s.prof e.output).waitLimit = some w ∧ 10 * w ≤ (s.tick - e.arrival).toNat) ∧
      c = .waitLimitExpiry e.output := by
  simp only [dueEntries, List.mem_append, List.mem_map, List.mem_filter, guardDue_iff, waitDue_iff, and_assoc,
    @eq_comm Instr _ c]

theorem dueCheck_eq_some_iff (n : Out) : dueCheck s n = some c ↔
    (∃ due, Pre.check s n due) ∧ c = .openCheckRequest n := by
  unfold dueCheck
  cases hdue : (s.ch n).checkDue with
  | none => simp [Pre.check, hdue]
  | some due => simp [Pre.check, hdue, @eq_comm Instr _ c]

/-- The end of the phase an output is in, by the state and the train record. -/
theorem duePhase_eq_some_iff (n : Out) : duePhase s n = some c ↔
    (Pre.powerEnd s n ∧ c = .powerEnd n) ∨ ((∃ tr, Pre.pulseEnd s n tr) ∧ c = .trainPulseEnd n) ∨
    (Pre.over s n .hold ∧ c = .maxHoldExpiry n) ∨
    ((Pre.over s n .cool ∧ (s.ch n).train = none) ∧ c = .coolEnd n) ∨
    ((Pre.over s n .cool ∧ (s.ch n).train ≠ none) ∧ c = .burstCoolEnd n) ∨
    (∃ tr b, Pre.pulseStart s n tr b) ∧ c = .burstPulseStart n := by
  constructor
  · intro h
    unfold duePhase at h
    dsimp only at h
    split at h
    next hstate htrain =>
      obtain ⟨hover, hc⟩ := Option.ite_none_right_eq_some.mp h
      exact .inl ⟨⟨hstate, htrain, ((phaseOver_iff s n .power).mp hover).2⟩, (Option.some.inj hc).symm⟩
    next tr hstate htrain =>
      obtain ⟨hover, hc⟩ := Option.ite_none_right_eq_some.mp h
      exact .inr (.inl ⟨⟨tr, (phaseOver_iff s n .power).mp hover, htrain⟩, (Option.some.inj hc).symm⟩)
    next =>
      obtain ⟨hover, hc⟩ := Option.ite_none_right_eq_some.mp h
      exact .inr (.inr (.inl ⟨(phaseOver_iff s n .hold).mp hover, (Option.some.inj hc).symm⟩))
    next hstate htrain =>
      obtain ⟨hover, hc⟩ := Option.ite_none_right_eq_some.mp h
      exact .inr (.inr (.inr (.inl ⟨⟨(phaseOver_iff s n .cool).mp hover, htrain⟩, (Option.some.inj hc).symm⟩)))
    next tr hstate htrain =>
      obtain ⟨hover, hc⟩ := Option.ite_none_right_eq_some.mp h
      exact .inr (.inr (.inr (.inr (.inl ⟨⟨(phaseOver_iff s n .cool).mp hover, by simp [htrain]⟩,
        (Option.some.inj hc).symm⟩))))
    next tr hstate htrain =>
      split at h
      next b hburst =>
        obtain ⟨hstart, hc⟩ := Option.ite_none_right_eq_some.mp h
        exact .inr (.inr (.inr (.inr (.inr ⟨⟨tr, b, hstate, htrain, hburst, hstart⟩, (Option.some.inj hc).symm⟩))))
      next => exact absurd h (by simp)
    next => exact absurd h (by simp)
  · rintro (⟨⟨hstate, htrain, hend⟩, rfl⟩ | ⟨⟨tr, ⟨hstate, hend⟩, htrain⟩, rfl⟩ | ⟨⟨hstate, hend⟩, rfl⟩ |
      ⟨⟨⟨hstate, hend⟩, htrain⟩, rfl⟩ | ⟨⟨⟨hstate, hend⟩, htrain⟩, rfl⟩ |
      ⟨⟨tr, b, hstate, htrain, hburst, hstart⟩, rfl⟩)
    · simp [duePhase, hstate, htrain, State.phaseOver, hend]
    · simp [duePhase, hstate, htrain, State.phaseOver, hend]
    · simp [duePhase, hstate, State.phaseOver, hend]
    · simp [duePhase, hstate, htrain, State.phaseOver, hend]
    · obtain ⟨tr, htrain⟩ := Option.ne_none_iff_exists'.mp htrain
      simp [duePhase, hstate, htrain, State.phaseOver, hend]
    · have hnext : reached s.tick b.nextStart = true := hstart
      simp [duePhase, hstate, htrain, hburst, hnext]

theorem mem_dueCoils_iff : c ∈ dueCoils s ↔ (∃ n, duePhase s n = some c) ∨ ∃ n, dueCheck s n = some c := by
  simp only [dueCoils, List.mem_append, List.mem_filterMap, List.mem_finRange, true_and]

theorem mem_dueConversion_iff : c ∈ dueConversion s ↔
    (s.sc.conv = some ⟨.supply, 0⟩ ∧ c = .supplyReadingEnd s.lines.supplyRaw) ∨
    ∃ n phase, s.sc.conv = some ⟨.current n phase, 0⟩ ∧ c = .currentConversionEnd (s.lines.currentRaw.get n) := by
  unfold dueConversion
  cases hconv : s.sc.conv with
  | none => simp
  | some conv =>
    obtain ⟨job, left⟩ := conv
    cases job <;> cases left <;> simp

end Members

/-- A command is due exactly where the rules make it fall or run out: of the parts above, each command stands in
one. -/
theorem mem_dueCommands_iff (s : State) (c : Instr) : c ∈ dueCommands s ↔ Due s c := by
  simp only [dueCommands, List.mem_append, List.mem_flatMap, List.mem_finRange, true_and, mem_dueFalling_iff,
    mem_dueStation_iff, mem_dueCoils_iff, duePhase_eq_some_iff, dueCheck_eq_some_iff, mem_dueEntries_iff,
    mem_dueBudget_iff, mem_dueSwitches_iff, mem_dueFlipper_iff, mem_dueConversion_iff, beatLate_iff]
  cases c
  case guardPassed n =>
    simp only [Due, reduceCtorEq, and_false, exists_false, false_or, or_false, Instr.guardPassed.injEq]
    constructor
    · rintro ⟨e, he, hguard, rfl⟩
      exact ⟨e, he, rfl, hguard⟩
    · rintro ⟨e, he, rfl, hguard⟩
      exact ⟨e, he, hguard, rfl⟩
  case waitLimitExpiry n =>
    simp only [Due, reduceCtorEq, and_false, exists_false, false_or, or_false, Instr.waitLimitExpiry.injEq]
    constructor
    · rintro ⟨e, he, hwait, rfl⟩
      exact ⟨e, he, rfl, hwait⟩
    · rintro ⟨e, he, rfl, hwait⟩
      exact ⟨e, he, hwait, rfl⟩
  all_goals simp [Due]

/-! ### 2 µs pass -/

theorem nextTick_eq (s : State) : nextTick s = tickBegun s := by
  have hviewing : s.viewing = true ↔ s.sl.station = .joining ∨ s.sl.station = .run := decide_eq_true_iff
  have hslots : s.hasSlots = true ↔
      (s.sl.station = .joining ∨ s.sl.station = .run) ∨ s.sl.station = .unconfigured := by
    rw [State.hasSlots, Bool.or_eq_true, hviewing, decide_eq_true_iff]
  have hlamps : { s.lp.beatTick with pos := s.nextPos } = { s.lp with
      pos := s.nextPos
      phase := if s.lp.beatOn = true then if s.lp.phase = 319 then 0 else s.lp.phase + 1 else s.lp.phase
      beat := if s.lp.beatOn = true ∧ s.lp.phase = 319 then s.lp.beat + 1 else s.lp.beat } := by
    unfold Lamps.beatTick
    by_cases hon : s.lp.beatOn = true
    · by_cases hphase : s.lp.phase = 319
      · simp only [if_pos hon, if_pos hphase, if_pos (And.intro hon hphase)]
      · simp only [if_pos hon, if_neg hphase, if_neg fun h : _ ∧ _ => hphase h.2]
    · simp only [if_neg hon, if_neg fun h : _ ∧ _ => hon h.1]
  unfold nextTick tickBegun fallingAt Lamps.beatFalls
  dsimp only
  simp only [hslots, hviewing, hlamps, List.append_assoc]
  rfl

/-- A bit of the link falls while LC takes part or still drives, at the units of its rate. -/
theorem bitFalls_eq {s t : State} (h : t.lc = s.lc) :
    t.bitFalls = decide ((s.lc.started = true ∨ 0 < s.lc.stopLeft ∨ 0 < s.lc.resetLeft) ∧
      (s.lc.rate500 = true ∨ t.unit % 2 = 0)) := by
  rw [State.bitFalls, h, Bool.eq_iff_iff]
  simp only [Link.overriding, Bool.and_eq_true, Bool.or_eq_true, decide_eq_true_iff]

theorem passTime_eq (s : State) : passTime s = unitPassed s := by
  have hbegun : (if Config.unitsPerTick ≤ s.unit + 1 then nextTick s else { s with unit := s.unit + 1 }) =
      if s.unit < 49 then { s with unit := s.unit + 1 } else tickBegun s := by
    rw [nextTick_eq]
    by_cases h : s.unit < 49
    · rw [if_pos h, if_neg (show ¬ Config.unitsPerTick ≤ s.unit + 1 from Nat.not_le.mpr (Nat.succ_lt_succ h))]
    · rw [if_neg h, if_pos (show Config.unitsPerTick ≤ s.unit + 1 from Nat.succ_le_succ (Nat.not_lt.mp h))]
  unfold passTime unitPassed
  dsimp only
  rw [hbegun]
  have hkept : (if s.unit < 49 then { s with unit := s.unit + 1 } else tickBegun s).lc = s.lc ∧
      (if s.unit < 49 then { s with unit := s.unit + 1 } else tickBegun s).sc = s.sc := by
    split <;> exact ⟨rfl, rfl⟩
  obtain ⟨hlc, hsc⟩ := hkept
  rw [bitFalls_eq hlc, hsc]
  rfl

/-! ### A step on an empty queue -/

theorem mem_dueNow_iff (s : State) (d : Option Instr) :
    d ∈ dueNow s ↔ (s.bitDue = true ∧ d = none) ∨ ∃ c, Due s c ∧ d = some c := by
  simp only [dueNow, List.mem_append, mem_ite_singleton_iff, List.mem_map, mem_dueCommands_iff,
    @eq_comm (Option Instr) _ d]

/-- Something due is taken, whatever the free order picks. -/
theorem idle_of_due {s : State} (h : dueNow s ≠ []) :
    ∃ d ∈ dueNow s, ∃ p, idle s = takeDue { s with picks := p } d := by
  unfold idle
  split
  next hnone => exact absurd hnone h
  next d hone => exact ⟨d, by rw [hone]; exact List.mem_singleton_self d, s.picks, rfl⟩
  next d rest _ hmany =>
    rw [hmany]
    have hlt : Config.freeOrder s.picks % (rest.length + 1) < (d :: rest).length := Nat.mod_lt _ (Nat.succ_pos _)
    refine ⟨(d :: rest).getD (Config.freeOrder s.picks % (rest.length + 1)) d, ?_, s.picks + 1, rfl⟩
    rw [getD_of_lt hlt]
    exact List.getElem_mem hlt

theorem step_of_empty {s : State} (h : s.pending = []) : step s = .next (idle s) := by
  rw [step, h]

theorem takeDue_some {s : State} (h : s.pending = []) (p : Nat) (c : Instr) :
    takeDue { s with picks := p } (some c) = { s with picks := p, pending := [c] } := by
  unfold takeDue
  dsimp only
  rw [h, List.nil_append]

/-- Settles O60: `mem_dueCommands_iff`, and what `idle` does with nothing, something, or the link's bit due. -/
theorem timePassesOnAnEmptyQueue : Obligations.TimePassesOnAnEmptyQueue := by
  refine ⟨mem_dueCommands_iff, ?quiet, ?command, ?bit, ?either⟩
  case quiet =>
    intro s hempty hnoBit hnone
    have hnow : dueNow s = [] := List.eq_nil_iff_forall_not_mem.mpr fun d hd => by
      rcases (mem_dueNow_iff s d).mp hd with ⟨hbit, -⟩ | ⟨c, hc, -⟩
      · exact absurd hbit (by simp [hnoBit])
      · exact hnone c hc
    rw [step_of_empty hempty, idle, hnow, ← passTime_eq]
  case command =>
    intro s hempty hnoBit ⟨c, hc⟩
    have hsome : dueNow s ≠ [] := List.ne_nil_of_mem ((mem_dueNow_iff s _).mpr (.inr ⟨c, hc, rfl⟩))
    obtain ⟨d, hd, p, hidle⟩ := idle_of_due hsome
    rcases (mem_dueNow_iff s d).mp hd with ⟨hbit, -⟩ | ⟨c, hc, rfl⟩
    · exact absurd hbit (by simp [hnoBit])
    · exact ⟨c, p, hc, by rw [step_of_empty hempty, hidle, takeDue_some hempty]⟩
  case bit =>
    intro s hempty hbit hnone
    have hcommands : dueCommands s = [] :=
      List.eq_nil_iff_forall_not_mem.mpr fun c hc => hnone c ((mem_dueCommands_iff s c).mp hc)
    have hnow : dueNow s = [none] := by rw [dueNow, if_pos hbit, hcommands]; rfl
    rw [step_of_empty hempty, idle, hnow]
    rfl
  case either =>
    intro s hempty hbit ⟨c, hc⟩
    have hsome : dueNow s ≠ [] := List.ne_nil_of_mem ((mem_dueNow_iff s _).mpr (.inr ⟨c, hc, rfl⟩))
    obtain ⟨d, hd, p, hidle⟩ := idle_of_due hsome
    refine ⟨p, ?_⟩
    rcases (mem_dueNow_iff s d).mp hd with ⟨-, rfl⟩ | ⟨c, hc, rfl⟩
    · exact .inr (by rw [step_of_empty hempty, hidle]; rfl)
    · exact .inl ⟨c, hc, by rw [step_of_empty hempty, hidle, takeDue_some hempty]⟩

end Sys2Proof.Proofs
end
